-- ==== Sys2Proof/Word.lean ====
section
/-! DEFINITION. The word types of the block: widths as the spec gives them (00_scope.md R7, R9, R11;
10_state.md, whole file; D59). -/

namespace Sys2Proof

/-- A byte of a frame or a payload (R9). -/
abbrev Byte := BitVec 8

/-- A byte string, index 0 first on the wire (R9). -/
abbrev Bytes := List Byte

/-- A 16-bit MAC address (R7, R60). -/
abbrev Addr := BitVec 16

/-- A 12-bit sequence number; arithmetic on it is modulo 4096 (R12). -/
abbrev Seq := BitVec 12

/-- A 64-bit time or duration in channel-clock units (R7 TIME_W, D2). -/
abbrev Time := BitVec 64

/-- A host command word CW32, or its VALUE operand, or a RESULT (R88, R44). -/
abbrev Word32 := BitVec 32

/-- BCAST, the broadcast address (R7: fixed by the source). -/
abbrev bcast : Addr := 0xFFFF#16

/-- CW_RESET, the collision window after reset and after a resolution (R7: fixed by the source). -/
abbrev cwReset : BitVec 16 := 1#16

end Sys2Proof
end

