-- ==== Sys2Proof/Syntax.lean ====
section
/-! DEFINITION. The syntax: frames, the ten instructions of spec/opcode_table.json, host commands as
they arrive at the port, and the lines of a schedule (R94). -/

namespace Sys2Proof

/-- The three frame kinds the block builds and queues (R11, R83). -/
inductive Kind where
  | data
  | ack
  | beacon
deriving DecidableEq, Repr, Inhabited

/-- A frame value (R11). -/
structure Frame where
  kind    : Kind
  retry   : Bool
  seq     : Seq
  dest    : Addr
  src     : Addr
  payload : Bytes
deriving DecidableEq, Repr, Inhabited

/-- The kind of a decoded frame: the three of R83, or OTHER(c) for a reserved code (R118). -/
inductive RxKind where
  | data
  | ack
  | beacon
  | other (code : BitVec 3)
deriving DecidableEq, Repr, Inhabited

/-- A decoded frame whose checksum validated: Frame' of R11, any 3-bit kind code allowed. -/
structure RxFrame where
  kind    : RxKind
  retry   : Bool
  seq     : Seq
  dest    : Addr
  src     : Addr
  payload : Bytes
deriving DecidableEq, Repr, Inhabited

/-- One constructor per row of spec/opcode_table.json.

A frame row (DATA, ACK, BEACON) carries every field of R81 but the checksum, which is computed.
Executing a frame is its reception by this station (R222); its transmission is the transmit agent's.
A host row carries the agent `h` whose port the word arrived on (R270) and the operands R89 lists for
it; the fields R90 calls ignored are no operands. -/
inductive Instr where
  | data   (retry : Bool) (seq : Seq) (dest src : Addr) (payload : Bytes)
  | ack    (retry : Bool) (seq : Seq) (dest src : Addr) (payload : Bytes)
  | beacon (retry : Bool) (seq : Seq) (dest src : Addr) (payload : Bytes)
  | send   (h : Nat) (dest : Addr) (payload : Bytes)
  | recv   (h : Nat)
  | status (h : Nat)
  | cmdHelp    (h : Nat)
  | cmdDebug   (h : Nat) (value : Word32)
  | cmdSlotsel (h : Nat) (value : Word32)
  | cmdBeacon  (h : Nat) (value : Word32)
deriving DecidableEq, Repr, Inhabited

/-- A host command as it arrives at the port: CW32 and its two operands (R88). -/
structure HostCommand where
  word    : Word32
  value   : Word32 := 0#32
  payload : Bytes := []
deriving DecidableEq, Repr, Inhabited

/-- One line of a schedule, that is one atomic step of one agent (R67, R94). -/
inductive AgentStep where
  /-- `!TX`: one step of the transmit agent (R171). -/
  | tx
  /-- `!RX`: one step of the receive agent (R221). -/
  | rx
  /-- Host agent `h` issues a command (R270). -/
  | host (h : Nat) (command : HostCommand)
  /-- The completion step of host agent `h`'s RECV (R277). -/
  | complete (h : Nat)
  /-- `@TICK`: the channel clock advances (R46). -/
  | tick (delta : Time)
  /-- `@BUSY`: carrier sense changes (R46). -/
  | busy (b : Bool)
  /-- `@ARRIVE`: the medium delivers a byte string (R46). -/
  | arrive (bytes : Bytes)
  /-- The environment drives the input CHAN_IDLE_TIME (R45: "written only by the environment").
  DESIGN CHOICE [log 7]: R46 names no step for it. -/
  | idleTime (d : Time)
deriving DecidableEq, Repr, Inhabited

end Sys2Proof
end

