-- ==== Sys2Proof/Config.lean ====
section
/-! DEFINITION. The implementation parameters (R7) and the free values (R13). -/

namespace Sys2Proof

/-- The parameters of R7. They are fixed at elaboration and no step writes them (R332). `State` carries
them so that every statement over all states is a statement over all configurations [log 4].
BCAST, SEQ_MOD, CW_RESET and TIME_W are fixed by the spec and are constants of Word.lean. -/
structure Config where
  /-- MY_ADDR, this station's address. -/
  myAddr       : Addr
  /-- MAX_PAYLOAD, the largest payload in bytes. -/
  maxPayload   : Nat
  /-- MAX_FRAME, the largest frame in bytes. -/
  maxFrame     : Nat
  /-- OQ_CAP, the outbound capacity SEND sees. -/
  oqCap        : Nat
  /-- OQ_HEADROOM, the entries reserved for ACK and BEACON inserts. -/
  oqHeadroom   : Nat
  /-- IQ_CAP, the inbound queue capacity. -/
  iqCap        : Nat
  /-- W, the reorder window slots per peer. -/
  winSlots     : Nat
  /-- CW_MAX, the collision window cap. -/
  cwMax        : Nat
  /-- RETRY_LIMIT. -/
  retryLimit   : Nat
  /-- SIFS_TIME. -/
  sifsTime     : Time
  /-- SLOT_TIME, one backoff slot. -/
  slotTime     : Time
  /-- DIFS_TIME. -/
  difsTime     : Time
  /-- SLOT_BOUNDARY, the rounding quantum of roundedBackoffBase. -/
  slotBoundary : Time
  /-- ACK_TIMEOUT. -/
  ackTimeout   : Time
  /-- BEACON_UNIT, time units per unit of the CMD.BEACON value. -/
  beaconUnit   : Time
  /-- HOST_AGENTS, the number of host agents. -/
  hostAgents   : Nat
deriving DecidableEq, Repr, Inhabited

/-- The reference values of R7. They are test values and no claim (R16). R7 gives no reference for
MY_ADDR: 0x0001 is a DESIGN CHOICE [log 4], the address of station A of 95_test_vectors.md. -/
def Config.reference : Config where
  myAddr       := 0x0001#16
  maxPayload   := 2038
  maxFrame     := 2048
  oqCap        := 4
  oqHeadroom   := 4
  iqCap        := 4
  winSlots     := 8
  cwMax        := 31
  retryLimit   := 5
  sifsTime     := 100#64
  slotTime     := 200#64
  difsTime     := 500#64
  slotBoundary := 200#64
  ackTimeout   := 2000#64
  beaconUnit   := 1000#64
  hostAgents   := 1

/-- The scheduler's, the environment's and the hosts' choices where no schedule is given: a FREE VALUE,
one per index (R13, R46, R67; D38, D39) [log 2]. Nothing is known of it. -/
opaque Config.freeStep : Nat → AgentStep

/-- The random backoff draws before their reduction to the range R197 gives: a FREE VALUE, one per
index (R13, R197; D47) [log 3]. Nothing is known of it. -/
opaque Config.freeDraw : Nat → Nat

end Sys2Proof
end

