-- ==== Sys2Proof/WellFormed.lean ====
section
/-! DEFINITION. Which configurations are legal (R8) and which instructions are well formed (R11, R44,
R85). -/

namespace Sys2Proof

/-- The parameter constraints a model checks (R8; HOST_AGENTS of at least 1 is R7's). The bounds that a
field's width already gives (times below 2^64) need no check. MAX_PAYLOAD has no lower bound here because R8
gives none; what follows for the beacon is log 21. -/
def Config.ok (c : Config) : Bool :=
  decide (c.myAddr ≠ bcast
    ∧ 1 ≤ c.oqCap
    ∧ 1 ≤ c.iqCap
    ∧ 2 * c.oqCap ≤ c.winSlots
    ∧ 1 ≤ c.cwMax ∧ c.cwMax ≤ 0xFFFF
    ∧ c.retryLimit ≤ 255
    ∧ c.sifsTime < c.difsTime
    ∧ 1#64 ≤ c.slotTime
    ∧ 1#64 ≤ c.slotBoundary
    ∧ c.maxPayload ≤ 2038
    ∧ c.maxFrame = c.maxPayload + 10
    ∧ 1 ≤ c.hostAgents)

/-- A payload that fits a frame (R11, R85). -/
def payloadFits (c : Config) (p : Bytes) : Bool := decide (p.length ≤ c.maxPayload)

/-- Host agents are numbered 1 to HOST_AGENTS (R44). -/
def hostExists (c : Config) (h : Nat) : Bool := decide (1 ≤ h) && decide (h ≤ c.hostAgents)

/-- An instruction that can reach the block: a frame's payload fits (R85), a command's agent exists
(R44). A SEND's payload may have any length: R273 says what an oversized one does. -/
def Instr.wellFormed (c : Config) : Instr → Bool
  | .data _ _ _ _ p   => payloadFits c p
  | .ack _ _ _ _ p    => payloadFits c p
  | .beacon _ _ _ _ p => payloadFits c p
  | .send h _ _       => hostExists c h
  | .recv h           => hostExists c h
  | .status h         => hostExists c h
  | .cmdHelp h        => hostExists c h
  | .cmdDebug h _     => hostExists c h
  | .cmdSlotsel h _   => hostExists c h
  | .cmdBeacon h _    => hostExists c h

end Sys2Proof
end

