-- ==== Sys2Proof/Decode.lean ====
section
/-! DEFINITION. The frame codec (40_frame_codec.md: CRC-32, DECODE, ENCODE), the host word decode
(R271) and encoder, and the two as one decoder of instructions. -/

namespace Sys2Proof

/-! ## Byte order (R9, R62) -/

/-- BE16: the two big-endian bytes of a 16-bit value (R9). -/
def be16 (v : BitVec 16) : Bytes := [v.extractLsb' 8 8, v.extractLsb' 0 8]

/-- BE32 (R9). -/
def be32 (v : BitVec 32) : Bytes :=
  [v.extractLsb' 24 8, v.extractLsb' 16 8, v.extractLsb' 8 8, v.extractLsb' 0 8]

/-- BE64 (R9). -/
def be64 (v : BitVec 64) : Bytes :=
  [v.extractLsb' 56 8, v.extractLsb' 48 8, v.extractLsb' 40 8, v.extractLsb' 32 8,
   v.extractLsb' 24 8, v.extractLsb' 16 8, v.extractLsb' 8 8, v.extractLsb' 0 8]

/-- B[i] (R9); 0 past the end, which no rule reads. -/
def byteAt (b : Bytes) (i : Nat) : Byte := b.getD i 0#8

/-- RdBE16 (R9). -/
def rdBE16 (b : Bytes) (i : Nat) : BitVec 16 := byteAt b i ++ byteAt b (i + 1)

/-- RdBE32 (R9). -/
def rdBE32 (b : Bytes) (i : Nat) : BitVec 32 := rdBE16 b i ++ rdBE16 b (i + 2)

/-- RdBE64 (R9). -/
def rdBE64 (b : Bytes) (i : Nat) : BitVec 64 := rdBE32 b i ++ rdBE32 b (i + 4)

/-! ## CRC-32 (R111) -/

/-- One of the eight inner iterations of R111: shift right, and XOR the reversed polynomial when the
bit shifted out is 1. -/
def crcBit (c : BitVec 32) : BitVec 32 :=
  if c.getLsbD 0 then (c >>> 1) ^^^ 0xEDB88320#32 else c >>> 1

/-- `n` inner iterations. -/
def crcBits : Nat → BitVec 32 → BitVec 32
  | 0, c     => c
  | n + 1, c => crcBits n (crcBit c)

/-- One byte of the message: XOR it in, then eight iterations (R111). -/
def crcByte (c : BitVec 32) (b : Byte) : BitVec 32 := crcBits 8 (c ^^^ b.setWidth 32)

/-- The CRC register after a byte string. -/
def crcRun : BitVec 32 → Bytes → BitVec 32
  | c, []     => c
  | c, b :: r => crcRun (crcByte c b) r

/-- CRC32(B) (R111). -/
def crc32 (b : Bytes) : BitVec 32 := crcRun 0xFFFFFFFF#32 b ^^^ 0xFFFFFFFF#32

/-! ## Kinds and the control word (R82, R83) -/

/-- KINDCODE (R112). -/
def kindCode : Kind → BitVec 3
  | .data   => 0b000#3
  | .ack    => 0b001#3
  | .beacon => 0b010#3

/-- KINDOF (R114): OTHER(c) for the five reserved codes. -/
def kindOf (c : BitVec 3) : RxKind :=
  if c = 0b000#3 then .data
  else if c = 0b001#3 then .ack
  else if c = 0b010#3 then .beacon
  else .other c

/-- The kind a frame of one of the three kinds decodes to (R83, R116). -/
def rxKindOf : Kind → RxKind
  | .data   => .data
  | .ack    => .ack
  | .beacon => .beacon

/-- CTL = kind in bits 15:13, retry in bit 12, seq in bits 11:0 (R82). -/
def packCtl (kind : BitVec 3) (retry : Bool) (seq : Seq) : BitVec 16 :=
  (kind ++ BitVec.ofBool retry) ++ seq

/-- CTL[15:13] (R82). -/
def ctlKind (ctl : BitVec 16) : BitVec 3 := ctl.extractLsb' 13 3

/-- CTL[12] (R84). -/
def ctlRetry (ctl : BitVec 16) : Bool := ctl.getLsbD 12

/-- CTL[11:0], never sign-extended (R84). -/
def ctlSeq (ctl : BitVec 16) : Seq := ctl.extractLsb' 0 12

/-! ## Header packer: ENCODE (R112) -/

/-- The frame less its trailer: control word, destination, source, payload (R81). -/
def frameBody (ctl : BitVec 16) (dest src : Addr) (payload : Bytes) : Bytes :=
  be16 ctl ++ be16 dest ++ be16 src ++ payload

/-- A body with its CRC-32 trailer appended (R112). -/
def sealBody (body : Bytes) : Bytes := body ++ be32 (crc32 body)

/-- ENCODE(f) (R112), of every frame. R113 lets a model refuse a tuple outside the operand constraints; this
one encodes it, which matters for the beacon under a MAX_PAYLOAD below 8: DESIGN CHOICE [log 21]. -/
def encodeFrame (f : Frame) : Bytes :=
  sealBody (frameBody (packCtl (kindCode f.kind) f.retry f.seq) f.dest f.src f.payload)

/-! ## Header unpacker and CRC checker: DECODE (R114) -/

/-- A decoded frame: Corrupt, or Ok with its fields (R11, R114). -/
inductive Decoded where
  | corrupt
  | ok (f : RxFrame)
deriving DecidableEq, Repr

/-- DECODE(B) (R114): the length bounds of R85, then the checksum, and only then the fields (R115). -/
def decodeBytes (c : Config) (b : Bytes) : Decoded :=
  let len := b.length
  if len < 10 ∨ c.maxFrame < len then .corrupt
  else if rdBE32 b (len - 4) ≠ crc32 (b.take (len - 4)) then .corrupt
  else
    let ctl := rdBE16 b 0
    .ok { kind    := kindOf (ctlKind ctl)
          retry   := ctlRetry ctl
          seq     := ctlSeq ctl
          dest    := rdBE16 b 2
          src     := rdBE16 b 4
          payload := (b.take (len - 4)).drop 6 }

/-! ## Instructions from what arrives -/

/-- Why the decoder gives no instruction. None of these is a fault: the rules cited say what the block
does. -/
inductive Reject where
  /-- A Corrupt frame (R117); R223 says what RX does. -/
  | corruptFrame
  /-- A frame of a reserved kind with a good checksum (R118); R222 and R228 say what RX does. -/
  | reservedKind (f : RxFrame)
  /-- An illegal host word (R91); R288 says what the port does. -/
  | illegalWord
deriving DecidableEq, Repr

/-- The instruction of a decoded frame, by its kind (R121 to R123). -/
def instrOfFrame (f : RxFrame) : Except Reject Instr :=
  match f.kind with
  | .data    => .ok (.data f.retry f.seq f.dest f.src f.payload)
  | .ack     => .ok (.ack f.retry f.seq f.dest f.src f.payload)
  | .beacon  => .ok (.beacon f.retry f.seq f.dest f.src f.payload)
  | .other _ => .error (.reservedKind f)

/-- The instruction of a received byte string. -/
def decodeFrame (c : Config) (b : Bytes) : Except Reject Instr :=
  match decodeBytes c b with
  | .corrupt => .error .corruptFrame
  | .ok f    => instrOfFrame f

/-- OP = CW32[31:24] (R88). -/
def cwOp (w : Word32) : BitVec 8 := w.extractLsb' 24 8

/-- CODE = CW32[23:16] (R88). -/
def cwCode (w : Word32) : BitVec 8 := w.extractLsb' 16 8

/-- ADDR = CW32[15:0] (R88). -/
def cwAddr (w : Word32) : Addr := w.extractLsb' 0 16

/-- The host decode (R271, R89): OP alone, and CODE only when OP is CMD (R90). -/
def decodeHost (h : Nat) (k : HostCommand) : Except Reject Instr :=
  if cwOp k.word = 0x01#8 then .ok (.send h (cwAddr k.word) k.payload)
  else if cwOp k.word = 0x02#8 then .ok (.recv h)
  else if cwOp k.word = 0x03#8 then .ok (.status h)
  else if cwOp k.word = 0x04#8 then
    if cwCode k.word = 0x00#8 then .ok (.cmdHelp h)
    else if cwCode k.word = 0x01#8 then .ok (.cmdDebug h k.value)
    else if cwCode k.word = 0x02#8 then .ok (.cmdSlotsel h k.value)
    else if cwCode k.word = 0x03#8 then .ok (.cmdBeacon h k.value)
    else .error .illegalWord
  else .error .illegalWord

/-- An encoded instruction: a byte string on the wire, or a command on agent `h`'s port (R92). -/
inductive Encoded where
  | frame (bytes : Bytes)
  | host (h : Nat) (command : HostCommand)
deriving DecidableEq, Repr

/-- The decoder: total on everything that can arrive (R311). -/
def decode (c : Config) : Encoded → Except Reject Instr
  | .frame b  => decodeFrame c b
  | .host h k => decodeHost h k

/-! ## The encoder -/

/-- CW32 from its three fields (R88). -/
def packWord (op code : BitVec 8) (addr : Addr) : Word32 := (op ++ code) ++ addr

/-- The encoding of an instruction, from R82, R83, R88 and R89; fields R90 calls ignored are 0. -/
def encode : Instr → Encoded
  | .data r n d a p   => .frame (encodeFrame ⟨.data, r, n, d, a, p⟩)
  | .ack r n d a p    => .frame (encodeFrame ⟨.ack, r, n, d, a, p⟩)
  | .beacon r n d a p => .frame (encodeFrame ⟨.beacon, r, n, d, a, p⟩)
  | .send h a p       => .host h { word := packWord 0x01#8 0x00#8 a, payload := p }
  | .recv h           => .host h { word := packWord 0x02#8 0x00#8 0#16 }
  | .status h         => .host h { word := packWord 0x03#8 0x00#8 0#16 }
  | .cmdHelp h        => .host h { word := packWord 0x04#8 0x00#8 0#16 }
  | .cmdDebug h v     => .host h { word := packWord 0x04#8 0x01#8 0#16, value := v }
  | .cmdSlotsel h v   => .host h { word := packWord 0x04#8 0x02#8 0#16, value := v }
  | .cmdBeacon h v    => .host h { word := packWord 0x04#8 0x03#8 0#16, value := v }

/-! ## The words of the opcode table -/

/-- What a word of the opcode table arrives as, every operand it has no bits for being 0 or empty. A
FRAME16 row (16 bits) is CTL; the frame gets DEST 0, SRC 0, no payload and the CRC trailer R112 appends,
since a trailer is no operand [log 13]. A HOSTCMD32 row (32 bits) is CW32 on agent 1's port. -/
def layTableWord (nbits w : Nat) : Option Encoded :=
  if nbits = 16 ∧ w < 2 ^ 16 then
    some (.frame (sealBody (frameBody (BitVec.ofNat 16 w) 0#16 0#16 [])))
  else if nbits = 32 ∧ w < 2 ^ 32 then some (.host 1 { word := BitVec.ofNat 32 w })
  else none

/-- The instruction the decoder reads from a word of the opcode table. -/
def decodeTableWord (nbits w : Nat) : Option Instr :=
  match layTableWord nbits w with
  | none   => none
  | some e => (decode Config.reference e).toOption

end Sys2Proof
end

