-- ==== Sys2Proof/Machine/State.lean ====
section
/-! DEFINITION. The state of one station (10_state.md, whole file), its reset value (R49, R330), and
the reasons a step can stop. -/

namespace Sys2Proof.Machine

/-- A table by key, sparse, in one canonical form: keys strictly rising, and no entry equal to the value
an unlisted key reads as (Ops.lean: `tableGet`, `tableSet`; `TableCanonical` in Safety.lean) [log 14]. -/
abbrev Table (α : Type) := List (Nat × α)

/-- TX_STATE with the names of R33. `unused` is the eighth value of the 3-bit register: no rule enters
it and the transmit step refuses it [log 17]. -/
inductive TxState where
  | idle
  | difsWait
  | backoffSlot
  | transmit
  | awaitAck
  | waitChannelIdle
  | sendAckSifs
  | unused
deriving DecidableEq, Repr, Inhabited

/-- An outbound entry: a frame with its two mutable parts (R11). -/
structure OutEntry where
  frame   : Frame
  acked   : Bool
  retries : BitVec 8
deriving DecidableEq, Repr, Inhabited

/-- An inbound entry, of a reorder slot or of IQ (R41, R43). -/
structure InEntry where
  src     : Addr
  seq     : Seq
  kind    : Kind
  payload : Bytes
deriving DecidableEq, Repr, Inhabited

/-- The W slots of one source's reorder window, slot 0 first; `none` is an empty slot (R41). -/
abbrev Window := List (Option InEntry)

/-- CP, the clock & policy registers (R22 to R31). -/
structure ClockPolicy where
  /-- OFFSET (R22). -/
  offset         : Time
  /-- BEACON_EN (R23). -/
  beaconEn       : Bool
  /-- BEACON_INTERVAL (R24). -/
  beaconInterval : Time
  /-- LAST_BEACON (R25). -/
  lastBeacon     : Time
  /-- CW (R26). -/
  cw             : BitVec 16
  /-- BACKOFF (R27). -/
  backoff        : BitVec 16
  /-- ACK_WAIT_START (R28). -/
  ackWaitStart   : Time
  /-- LAST_EVENT (R29). -/
  lastEvent      : BitVec 8
  /-- DEBUG (R30). -/
  debug          : BitVec 32
  /-- FIXED_SLOT (R31). -/
  fixedSlot      : Bool
deriving DecidableEq, Repr, Inhabited

/-- TX, the transmit unit's registers (R33 to R37). -/
structure TxUnit where
  /-- TX_STATE (R33). -/
  state       : TxState
  /-- TXH_VALID (R34). -/
  txhValid    : Bool
  /-- TXH (R34). -/
  txh         : OutEntry
  /-- TX_DEADLINE (R35). -/
  deadline    : Time
  /-- NEED_BACKOFF (R36). -/
  needBackoff : Bool
  /-- ACKR_VALID (R37). -/
  ackrValid   : Bool
  /-- ACKR (R37). -/
  ackr        : Frame
  /-- ACK_PHASE (R37): false is phase 0, true is phase 1. -/
  ackPhase    : Bool
  /-- ACK_RETURN (R37). -/
  ackReturn   : Bool
deriving DecidableEq, Repr, Inhabited

/-- RX, the sequence tables of section 5 (R39 to R42); keys are 16-bit addresses. -/
structure RxTables where
  /-- OUT_SEQ (R39); unlisted reads 0. -/
  outSeq : Table Seq
  /-- IN_SEEN (R40); unlisted reads 0. -/
  inSeen : Table Bool
  /-- IN_EXP (R40); unlisted reads 0. -/
  inExp  : Table Seq
  /-- WIN (R41); unlisted reads as W empty slots. -/
  win    : Table Window
  /-- BC_EXP (R42). -/
  bcExp  : Seq
deriving DecidableEq, Repr, Inhabited

/-- The registers of one host agent (R44). -/
structure HostRegs where
  /-- H_BLOCKED. -/
  blocked   : Bool
  /-- RESULT. -/
  result    : Word32
  /-- RX_SRC. -/
  rxSrc     : Addr
  /-- RX_PAYLOAD. -/
  rxPayload : Bytes
deriving DecidableEq, Repr, Inhabited

/-- The reset value of a host agent's registers (R44, R49); an unlisted agent reads as this. -/
def HostRegs.reset : HostRegs := ⟨false, 0#32, 0#16, []⟩

/-- ENV, the channel port and time (R45). -/
structure ChannelPort where
  /-- CHAN_CLOCK. -/
  clock    : Time
  /-- CHAN_BUSY. -/
  busy     : Bool
  /-- CHAN_RXQ, oldest first. -/
  rxq      : List Bytes
  /-- CHAN_TXLOG, in the order of transmission. -/
  txlog    : List Bytes
  /-- CHAN_IDLE_TIME, read by no rule. -/
  idleTime : Time
deriving DecidableEq, Repr, Inhabited

/-- The state of one station: the tuple (CP, TX, OQ, RX, IQ, HOST, ENV) of R20, the configuration
[log 4], and the model's own record of the schedule and of the free values consumed [log 1, 2, 3]. -/
structure State where
  /-- The parameters of R7; no step writes them (R332). -/
  cfg        : Config
  cp         : ClockPolicy
  tx         : TxUnit
  /-- OQ, index 0 the front (R38). -/
  oq         : List OutEntry
  rx         : RxTables
  /-- IQ, index 0 the front (R43). -/
  iq         : List InEntry
  /-- HOST, keyed by agent number (R44). -/
  hosts      : Table HostRegs
  chan       : ChannelPort
  /-- MODEL: the agent steps already picked, next first (R67, R94). -/
  sched      : List AgentStep
  /-- MODEL: the index of the next free pick, used when `sched` is empty. -/
  schedCount : Nat
  /-- MODEL: the index of the next free backoff draw. -/
  drawCount  : Nat
deriving DecidableEq, Repr, Inhabited

/-- There are no faults. "The block raises no synchronous exception. No step has a trap outcome" (R311),
so the type has no constructor and a fault cannot occur: safe. -/
inductive Fault where
deriving DecidableEq, Repr

/-- Why a step is refused. No instruction of the opcode table is refused. -/
inductive Refusal where
  /-- An arm of `exec` for an instruction that has no meaning yet. No arm raises it: safe. -/
  | notModelled (mnemonic : String)
  /-- Raised by the transmit step on TX_STATE = 7, which no rule enters: "a model that finds it refuses
  the state" (R33): safe. -/
  | unusedTxState
  /-- Raised by `step` where the configuration fails a constraint of R8: "a configuration that fails one
  is refused": safe. -/
  | illegalConfiguration
deriving DecidableEq, Repr

/-- TXH and ACKR right after reset: "unspecified, unread" (R34, R37). DESIGN CHOICE: all fields 0 [log 6]. -/
def Frame.zeroed (k : Kind) : Frame := ⟨k, false, 0#12, 0#16, 0#16, []⟩

/-- The clock & policy registers after reset (R49). -/
def ClockPolicy.reset : ClockPolicy where
  offset         := 0#64
  beaconEn       := false
  beaconInterval := 0#64
  lastBeacon     := 0#64
  cw             := cwReset
  backoff        := 0#16
  ackWaitStart   := 0#64
  lastEvent      := 1#8
  debug          := 0#32
  fixedSlot      := false

/-- The transmit unit after reset (R49). -/
def TxUnit.reset : TxUnit where
  state       := .idle
  txhValid    := false
  txh         := ⟨Frame.zeroed .data, false, 0#8⟩
  deadline    := 0#64
  needBackoff := false
  ackrValid   := false
  ackr        := Frame.zeroed .ack
  ackPhase    := false
  ackReturn   := false

/-- The sequence tables after reset (R49): every entry at the value an unlisted key reads as. -/
def RxTables.reset : RxTables := ⟨[], [], [], [], 0#12⟩

/-- Reset for a configuration and for the environment's initial CHAN_CLOCK and CHAN_BUSY (R49, R330:
"The environment supplies CHAN_CLOCK and CHAN_BUSY as model arguments"). -/
def State.resetWith (c : Config) (clock : Time) (busy : Bool) : State where
  cfg        := c
  cp         := ClockPolicy.reset
  tx         := TxUnit.reset
  oq         := []
  rx         := RxTables.reset
  iq         := []
  hosts      := []
  chan       := ⟨clock, busy, [], [], 0#64⟩
  sched      := []
  schedCount := 0
  drawCount  := 0

/-- The machine right after reset (R330), at the reference parameters, CHAN_CLOCK 0 and an idle channel:
DESIGN CHOICE [log 4, 5]. Every other argument is `State.resetWith`. -/
def State.reset : State := State.resetWith Config.reference 0#64 false

end Sys2Proof.Machine
end

