-- ==== Sys2Proof/Machine/Flags.lean ====
section
/-! DEFINITION. The block's status codes (R300) and the two verdicts it computes: the modular sequence
comparison (R232) and the broadcast filter's pass bit (R240). There are no arithmetic condition codes
(R47). -/

namespace Sys2Proof.Machine

/-- The status taxonomy (R300). -/
inductive Status where
  | success
  | unspecifiedError
  | rfInitFailed
  | txDelivered
  | txFailed
  | badBufferSize
  | badAddress
  | badMacAddress
  | illegalArgument
  | insufficientBufferSpace
deriving DecidableEq, Repr

/-- The number LAST_EVENT holds for a status (R300). -/
def statusCode : Status → BitVec 8
  | .success                 => 1#8
  | .unspecifiedError        => 2#8
  | .rfInitFailed            => 3#8
  | .txDelivered             => 4#8
  | .txFailed                => 5#8
  | .badBufferSize           => 6#8
  | .badAddress              => 7#8
  | .badMacAddress           => 8#8
  | .illegalArgument         => 9#8
  | .insufficientBufferSpace => 10#8

/-- The encoding of TX_STATE (R33). -/
def txStateCode : TxState → BitVec 3
  | .idle            => 0#3
  | .difsWait        => 1#3
  | .backoffSlot     => 2#3
  | .transmit        => 3#3
  | .awaitAck        => 4#3
  | .waitChannelIdle => 5#3
  | .sendAckSifs     => 6#3
  | .unused          => 7#3

/-- d(n, E) = (n - E) mod 4096 (R12). -/
def seqDistance (n e : Seq) : Nat := (n - e).toNat

/-- The three-way verdict of R232. -/
inductive SeqOrder where
  | equal
  | ahead
  | behind
deriving DecidableEq, Repr

/-- equal if d = 0, ahead if 1 ≤ d ≤ 2047, behind if 2048 ≤ d ≤ 4095 (R232). -/
def seqCompare (n e : Seq) : SeqOrder :=
  if seqDistance n e = 0 then .equal
  else if seqDistance n e ≤ 2047 then .ahead
  else .behind

end Sys2Proof.Machine
end

