-- ==== Sys2Proof/Machine/Operands.lean ====
section
/-! DEFINITION. The readings of operands: a command's VALUE (R88, R285, R286) and the classes of
address and frame that the rules branch on. -/

namespace Sys2Proof.Machine

/-- VALUE read as a two's-complement signed number (R88, R286). -/
def signedValue (v : Word32) : Int := v.toInt

/-- The slot-selection mode a VALUE selects: non-zero is fixed (R285). -/
def slotMode (v : Word32) : Bool := v != 0#32

/-- zext_64(v) * BEACON_UNIT, on 64 bits (R286, R9). -/
def beaconIntervalOf (c : Config) (v : Word32) : Time := v.setWidth 64 * c.beaconUnit

/-- A destination is the broadcast address (R7 BCAST). -/
def isBroadcast (a : Addr) : Bool := a == bcast

/-- A destination is this station (R222). -/
def isMine (c : Config) (a : Addr) : Bool := a == c.myAddr

/-- A unicast DATA frame, the only kind that waits for an ACK (R121, R188). -/
def isUnicastData (f : Frame) : Bool := f.kind == .data && !isBroadcast f.dest

end Sys2Proof.Machine
end

