-- ==== Sys2Proof/Machine/Ops.lean ====
section
/-! DEFINITION. The named operations over the state: the table, queue and channel primitives of R10,
`Record` (R301), the free draw (R13) and the host agents' registers (R44).

There is no exception entry and no return from one: R311, R313 and R314 say that the block has
neither. `record` is the whole of its error reporting (R301). -/

namespace Sys2Proof.Machine

/-! ## Tables (R10, R39 to R41) [log 14] -/

/-- T[k], where an unlisted key reads as `d`. -/
def tableGet {α : Type} (d : α) : Table α → Nat → α
  | [], _          => d
  | (j, v) :: r, k => if j = k then v else tableGet d r k

/-- List the entry (k, v), in place of any entry of key k. -/
def tableInsert {α : Type} (k : Nat) (v : α) : Table α → Table α
  | []          => [(k, v)]
  | (j, w) :: r =>
    if k < j then (k, v) :: (j, w) :: r
    else if k = j then (k, v) :: r
    else (j, w) :: tableInsert k v r

/-- Unlist key k. -/
def tableErase {α : Type} (k : Nat) : Table α → Table α
  | []          => []
  | (j, w) :: r => if k = j then tableErase k r else (j, w) :: tableErase k r

/-- T[k] <- v. Writing what an unlisted key reads as removes the entry, so the form stays canonical. -/
def tableSet {α : Type} [DecidableEq α] (d : α) (t : Table α) (k : Nat) (v : α) : Table α :=
  if v = d then tableErase k t else tableInsert k v t

/-- The window with every slot empty (R41). -/
def emptyWindow (c : Config) : Window := List.replicate c.winSlots none

/-- OUT_SEQ[a] (R39). -/
def outSeqAt (s : State) (a : Addr) : Seq := tableGet 0#12 s.rx.outSeq a.toNat

/-- OUT_SEQ[a] <- v. -/
def setOutSeq (a : Addr) (v : Seq) (s : State) : State :=
  { s with rx := { s.rx with outSeq := tableSet 0#12 s.rx.outSeq a.toNat v } }

/-- IN_SEEN[a] (R40). -/
def inSeenAt (s : State) (a : Addr) : Bool := tableGet false s.rx.inSeen a.toNat

/-- IN_SEEN[a] <- v. -/
def setInSeen (a : Addr) (v : Bool) (s : State) : State :=
  { s with rx := { s.rx with inSeen := tableSet false s.rx.inSeen a.toNat v } }

/-- IN_EXP[a] (R40). -/
def inExpAt (s : State) (a : Addr) : Seq := tableGet 0#12 s.rx.inExp a.toNat

/-- IN_EXP[a] <- v. -/
def setInExp (a : Addr) (v : Seq) (s : State) : State :=
  { s with rx := { s.rx with inExp := tableSet 0#12 s.rx.inExp a.toNat v } }

/-- WIN[a] (R41). -/
def windowAt (s : State) (a : Addr) : Window := tableGet (emptyWindow s.cfg) s.rx.win a.toNat

/-- WIN[a] <- w. -/
def setWindow (a : Addr) (w : Window) (s : State) : State :=
  { s with rx := { s.rx with win := tableSet (emptyWindow s.cfg) s.rx.win a.toNat w } }

/-- BC_EXP <- v (R42). -/
def setBcExp (v : Seq) (s : State) : State := { s with rx := { s.rx with bcExp := v } }

/-! ## Host agents (R44) -/

/-- The registers of host agent h. -/
def hostAt (s : State) (h : Nat) : HostRegs := tableGet HostRegs.reset s.hosts h

/-- Write the registers of host agent h. -/
def setHost (h : Nat) (r : HostRegs) (s : State) : State :=
  { s with hosts := tableSet HostRegs.reset s.hosts h r }

/-- RESULT[h] <- v. -/
def setResult (h : Nat) (v : Word32) (s : State) : State := setHost h { hostAt s h with result := v } s

/-! ## Status (R301) -/

/-- Record(code): LAST_EVENT <- code, and nothing else (R301). -/
def record (c : Status) (s : State) : State := { s with cp := { s.cp with lastEvent := statusCode c } }

/-! ## Queues and channel (R10) -/

/-- occ = |OQ| + TXH_VALID (R38). -/
def occupancy (s : State) : Nat := s.oq.length + (if s.tx.txhValid then 1 else 0)

/-- IQ is full when |IQ| = IQ_CAP (R43). -/
def iqFull (s : State) : Bool := s.iq.length == s.cfg.iqCap

/-- An entry as SEND, the beacon check and EnqueueAck build it: acked 0, retries 0 (R176, R231, R274). -/
def freshEntry (f : Frame) : OutEntry := ⟨f, false, 0#8⟩

/-- PushFront(OQ, e). -/
def pushFrontOq (e : OutEntry) (s : State) : State := { s with oq := e :: s.oq }

/-- PushBack(OQ, e). -/
def pushBackOq (e : OutEntry) (s : State) : State := { s with oq := s.oq ++ [e] }

/-- Deliver(e): PushBack(IQ, e) (R243). -/
def deliver (e : InEntry) (s : State) : State := { s with iq := s.iq ++ [e] }

/-- ChanTransmit(bytes): append to CHAN_TXLOG (R10, R65). -/
def chanTransmit (b : Bytes) (s : State) : State :=
  { s with chan := { s.chan with txlog := s.chan.txlog ++ [b] } }

/-! ## Draws (R10, R13) -/

/-- Draw(lo, hi): the n-th free draw, any v with lo ≤ v ≤ hi [log 3]. -/
def drawBetween (n lo hi : Nat) : Nat := lo + Config.freeDraw n % (hi - lo + 1)

end Sys2Proof.Machine
end

