-- ==== Sys2Proof/Machine/HostPort.lean ====
section
/-! DEFINITION. The host command port (44_host_commands.md): the meanings of the seven host rows of the
opcode table, and what an illegal word does. -/

namespace Sys2Proof.Machine

/-! ## SEND -/

/-- A rejected SEND or an illegal word: Record(code) and RESULT <- 0, nothing else (R273, R275, R288). -/
def rejectCommand (h : Nat) (c : Status) (s : State) : State := setResult h 0#32 (record c s)

/-- The frame an accepted SEND queues (R274). -/
def sendFrame (s : State) (dest : Addr) (payload : Bytes) : Frame :=
  ⟨.data, false, outSeqAt s dest, dest, s.cfg.myAddr, payload⟩

/-- SEND, accepted (R274). -/
def acceptSend (h : Nat) (dest : Addr) (payload : Bytes) (s : State) : State :=
  setResult h (BitVec.ofNat 32 payload.length)
    (pushBackOq (freshEntry (sendFrame s dest payload)) (setOutSeq dest (outSeqAt s dest + 1) s))

/-- SEND (R272): the size check first, then the capacity check. -/
def execSend (h : Nat) (dest : Addr) (payload : Bytes) (s : State) : Host.Outcome State Fault Refusal :=
  .next (
    if s.cfg.maxPayload < payload.length then rejectCommand h .badBufferSize s
    else if s.cfg.oqCap ≤ occupancy s then rejectCommand h .insufficientBufferSpace s
    else acceptSend h dest payload s)

/-! ## RECV -/

/-- RECV's issue step: H_BLOCKED[h] <- 1 (R277). -/
def recvIssue (h : Nat) (s : State) : State := setHost h { hostAt s h with blocked := true } s

/-- RECV's completion step with IQ's front `e` (R277). -/
def recvComplete (h : Nat) (e : InEntry) (rest : List InEntry) (s : State) : State :=
  setHost h ⟨false, BitVec.ofNat 32 e.payload.length, e.src, e.payload⟩ { s with iq := rest }

/-- RECV (R277) takes two steps of its agent, told apart by H_BLOCKED[h]: the issue step, then the
completion step, which while IQ is empty holds and changes nothing [log 11]. -/
def execRecv (h : Nat) (s : State) : Host.Outcome State Fault Refusal :=
  .next (
    if (hostAt s h).blocked then
      match s.iq with
      | []        => s
      | e :: rest => recvComplete h e rest s
    else recvIssue h s)

/-! ## STATUS and CMD -/

/-- STATUS (R280): RESULT <- zext_32(LAST_EVENT), which stays. -/
def execStatus (h : Nat) (s : State) : Host.Outcome State Fault Refusal :=
  .next (setResult h (s.cp.lastEvent.setWidth 32) s)

/-- CMD.HELP (R283): RESULT <- 0 only. -/
def execCmdHelp (h : Nat) (s : State) : Host.Outcome State Fault Refusal := .next (setResult h 0#32 s)

/-- CMD.DEBUG (R284): DEBUG <- VALUE. -/
def execCmdDebug (h : Nat) (value : Word32) (s : State) : Host.Outcome State Fault Refusal :=
  .next (setResult h 0#32 { s with cp := { s.cp with debug := value } })

/-- CMD.SLOTSEL (R285): FIXED_SLOT <- (1 if VALUE ≠ 0 else 0). -/
def execCmdSlotsel (h : Nat) (value : Word32) (s : State) : Host.Outcome State Fault Refusal :=
  .next (setResult h 0#32 { s with cp := { s.cp with fixedSlot := slotMode value } })

/-- BEACON_EN and BEACON_INTERVAL as CMD.BEACON writes them (R286). -/
def setBeacons (value : Word32) (s : State) : State :=
  if signedValue value < 0 then { s with cp := { s.cp with beaconEn := false } }
  else { s with cp := { s.cp with beaconEn := true, beaconInterval := beaconIntervalOf s.cfg value } }

/-- CMD.BEACON (R286). -/
def execCmdBeacon (h : Nat) (value : Word32) (s : State) : Host.Outcome State Fault Refusal :=
  .next (setResult h 0#32 (setBeacons value s))

/-- An illegal CW32 (R288). -/
def illegalWord (h : Nat) (s : State) : State := rejectCommand h .illegalArgument s

end Sys2Proof.Machine
end

