-- ==== Sys2Proof/Machine/ClockPolicy.lean ====
section
/-! DEFINITION. The clock & policy operations (41_clock_policy.md). Each runs inside its caller's step
(R66) and none blocks or writes the channel (R155). -/

namespace Sys2Proof.Machine

/-- now() = (ChanClock() + OFFSET) mod 2^64 (R140). -/
def now (s : State) : Time := s.chan.clock + s.cp.offset

/-- roundedBackoffBase(): the wait that covers DIFS_TIME and ends on a multiple of SLOT_BOUNDARY (R142). -/
def roundedBackoffBase (s : State) : Time :=
  let r := (now s + s.cfg.difsTime) % s.cfg.slotBoundary
  if r = 0#64 then s.cfg.difsTime else s.cfg.difsTime + (s.cfg.slotBoundary - r)

/-- A beacon is due (the condition of R146). -/
def beaconDue (s : State) : Bool :=
  s.cp.beaconEn && decide (s.cp.beaconInterval ≤ now s - s.cp.lastBeacon)

/-- maybeBeaconPayload(): the payload if one is due, and the state with LAST_BEACON updated whenever a
payload is returned (R146); the payload is BE64(now()) (R147). -/
def maybeBeaconPayload (s : State) : Option Bytes × State :=
  if beaconDue s then (some (be64 (now s)), { s with cp := { s.cp with lastBeacon := now s } })
  else (none, s)

/-- absorbBeacon(remote): OFFSET grows by the lead of a greater timestamp, else nothing (R150). -/
def absorbBeacon (remote : Time) (s : State) : State :=
  if now s < remote then { s with cp := { s.cp with offset := s.cp.offset + (remote - now s) } } else s

/-- startAckTimer(): ACK_WAIT_START <- now() (R152). -/
def startAckTimer (s : State) : State := { s with cp := { s.cp with ackWaitStart := now s } }

/-- ackTimedOut() (R153). -/
def ackTimedOut (s : State) : Bool := decide (s.cfg.ackTimeout ≤ now s - s.cp.ackWaitStart)

end Sys2Proof.Machine
end

