-- ==== Sys2Proof/Machine/Receive.lean ====
section
/-! DEFINITION. The receive unit RX (43_receive.md): the dispatch, the ACK matcher, the sequence
tracker with reassembly, the broadcast filter, and the meanings of the three frame rows of the opcode
table, which are their reception. -/

namespace Sys2Proof.Machine

/-! ## ACK construction and queueing -/

/-- MAKEACK (R120): an ACK for sequence n to source S. -/
def makeAck (c : Config) (n : Seq) (src : Addr) : Frame := ⟨.ack, false, n, src, c.myAddr, []⟩

/-- EnqueueAck(S, n) (R231): past the headroom the ACK is dropped with no status. -/
def enqueueAck (src : Addr) (n : Seq) (s : State) : State :=
  if occupancy s < s.cfg.oqCap + s.cfg.oqHeadroom then
    pushFrontOq (freshEntry (makeAck s.cfg n src)) s
  else s

/-! ## Sequence tracker and reassembly (unicast) -/

/-- First sighting of a source (R234). -/
def sightSource (src : Addr) (s : State) : State :=
  if inSeenAt s src then s
  else setWindow src (emptyWindow s.cfg) (setInExp src 0#12 (setInSeen src true s))

/-- Drain(S) (R235), with a bound on its iterations. Each iteration shifts the window by one slot and
puts an empty slot at its end, so after W of them every slot is empty and iteration W + 1 returns
[log 15]. -/
def drainLoop (src : Addr) : Nat → State → State
  | 0, s        => s
  | fuel + 1, s =>
    let w := windowAt s src
    let shifted := setWindow src (w.tail ++ [none]) s
    match w.head?.join with
    | none   => shifted
    | some c =>
      if iqFull shifted then record .insufficientBufferSpace shifted
      else drainLoop src fuel (setInExp src (inExpAt shifted src + 1) (deliver c shifted))

/-- Drain(S) (R235). -/
def drain (src : Addr) (s : State) : State := drainLoop src (s.cfg.winSlots + 1) s

/-- The equal case (R233). -/
def acceptInOrder (e : InEntry) (s : State) : State :=
  drain e.src (setInExp e.src (e.seq + 1) (enqueueAck e.src e.seq (deliver e s)))

/-- The ahead case (R236): record the gap, and store the entry if its slot exists. -/
def bufferAhead (e : InEntry) (s : State) : State :=
  let i := seqDistance e.seq (inExpAt s e.src) - 1
  let s' := record .unspecifiedError s
  if i < s.cfg.winSlots then setWindow e.src ((windowAt s' e.src).set i (some e)) s' else s'

/-- The tracker on one DATA frame from S = e.src with sequence n = e.seq (R233 to R237). -/
def trackSequence (e : InEntry) (s : State) : State :=
  let s' := sightSource e.src s
  match seqCompare e.seq (inExpAt s' e.src) with
  | .equal  => acceptInOrder e s'
  | .ahead  => bufferAhead e s'
  | .behind => enqueueAck e.src e.seq s'

/-! ## Broadcast duplicate filter -/

/-- BcastPass(n) (R240): `some` of the state with its side effect where the bit is 1, `none` where it is
0, in which case nothing is written. -/
def bcastPass (n : Seq) (s : State) : Option State :=
  match seqCompare n s.rx.bcExp with
  | .equal  => some (setBcExp (n + 1) s)
  | .ahead  => some s
  | .behind => none

/-! ## ACK matcher -/

/-- AckMatch(d) (R230): the frame in flight is DATA, to the ACK's source, with the ACK's sequence. -/
def ackMatch (d : RxFrame) (s : State) : Bool :=
  s.tx.txhValid && s.tx.txh.frame.kind == .data
    && s.tx.txh.frame.dest == d.src && s.tx.txh.frame.seq == d.seq

/-- TXH.acked <- 1 (R227). -/
def markAcked (s : State) : State := { s with tx := { s.tx with txh := { s.tx.txh with acked := true } } }

/-! ## Dispatch -/

/-- Case 1, a corrupt frame (R223). -/
def dropCorrupt (s : State) : State := record .unspecifiedError s

/-- Case 2, a beacon that passed the filter: absorb its first 8 payload bytes, if it has them (R224). -/
def absorbPayload (p : Bytes) (s : State) : State :=
  if 8 ≤ p.length then absorbBeacon (rdBE64 p 0) s else s

/-- The inbound entry of a received DATA frame (R236, R243). -/
def dataEntry (d : RxFrame) : InEntry := ⟨d.src, d.seq, .data, d.payload⟩

/-- Cases 4 to 6 and the ignored rest, reached where neither case 2 nor case 3 applies (R226 to R229). -/
def dispatchRoom (d : RxFrame) (s : State) : State :=
  match if d.kind = .data ∧ isBroadcast d.dest then bcastPass d.seq s else none with
  | some s' => deliver (dataEntry d) s'
  | none    =>
    if isMine s.cfg d.dest ∧ d.kind = .ack ∧ ackMatch d s then markAcked s
    else if isMine s.cfg d.dest ∧ d.kind = .data then trackSequence (dataEntry d) s
    else s

/-- Dispatch of a frame that is not corrupt (R222): case 2, case 3, then the rest. -/
def dispatch (d : RxFrame) (s : State) : State :=
  match if d.kind = .beacon ∧ isBroadcast d.dest ∧ s.cp.beaconEn then bcastPass d.seq s else none with
  | some s' => absorbPayload d.payload s'
  | none    => if iqFull s then record .insufficientBufferSpace s else dispatchRoom d s

/-! ## The meanings of the frame rows -/

/-- DATA (R121): received, through R225, R226 or R229, or ignored. -/
def execData (retry : Bool) (seq : Seq) (dest src : Addr) (payload : Bytes) (s : State) :
    Host.Outcome State Fault Refusal :=
  .next (dispatch ⟨.data, retry, seq, dest, src, payload⟩ s)

/-- ACK (R122): received, through R225 or the ACK matcher of R227, or ignored. -/
def execAck (retry : Bool) (seq : Seq) (dest src : Addr) (payload : Bytes) (s : State) :
    Host.Outcome State Fault Refusal :=
  .next (dispatch ⟨.ack, retry, seq, dest, src, payload⟩ s)

/-- BEACON (R123): received, through R224 or R225, or ignored. -/
def execBeacon (retry : Bool) (seq : Seq) (dest src : Addr) (payload : Bytes) (s : State) :
    Host.Outcome State Fault Refusal :=
  .next (dispatch ⟨.beacon, retry, seq, dest, src, payload⟩ s)

end Sys2Proof.Machine
end

