-- ==== Sys2Proof/Machine/Dispatch.lean ====
section
/-! DEFINITION. One arm per row of spec/opcode_table.json. -/

namespace Sys2Proof.Machine

def exec (i : Instr) (s : State) : Host.Outcome State Fault Refusal :=
  match i with
  | .data retry seq dest src payload => Sys2Proof.Machine.execData retry seq dest src payload s
  | .ack retry seq dest src payload => Sys2Proof.Machine.execAck retry seq dest src payload s
  | .beacon retry seq dest src payload => Sys2Proof.Machine.execBeacon retry seq dest src payload s
  | .send h dest payload => Sys2Proof.Machine.execSend h dest payload s
  | .recv h => Sys2Proof.Machine.execRecv h s
  | .status h => Sys2Proof.Machine.execStatus h s
  | .cmdHelp h => Sys2Proof.Machine.execCmdHelp h s
  | .cmdDebug h value => Sys2Proof.Machine.execCmdDebug h value s
  | .cmdSlotsel h value => Sys2Proof.Machine.execCmdSlotsel h value s
  | .cmdBeacon h value => Sys2Proof.Machine.execCmdBeacon h value s

end Sys2Proof.Machine
end

