-- ==== Sys2Proof/Machine/Transmit.lean ====
section
/-! DEFINITION. The transmit unit TX (42_transmit.md): one step is the first case of R174 to R203 that
TX_STATE and the conditions select (R171, R172). -/

namespace Sys2Proof.Machine

/-! ## Backoff draw and window controller -/

/-- BACKOFF <- BackoffDraw() with the CW current when it runs: CW if FIXED_SLOT, else any value in 0..CW
(R197). A random draw consumes one free value [log 3]. -/
def reloadBackoff (s : State) : State :=
  if s.cp.fixedSlot then { s with cp := { s.cp with backoff := s.cp.cw } }
  else
    { s with
      cp := { s.cp with backoff := BitVec.ofNat 16 (drawBetween s.drawCount 0 s.cp.cw.toNat) }
      drawCount := s.drawCount + 1 }

/-- min(2 * CW, CW_MAX), computed without overflow of the 16-bit CW (R196). -/
def doubledWindow (c : Config) (cw : BitVec 16) : BitVec 16 := BitVec.ofNat 16 (min (2 * cw.toNat) c.cwMax)

/-! ## IDLE / CHECK_BEACON -/

/-- Remove(OQ, e -> e.frame.kind == BEACON) (R175). -/
def removeBeacons (s : State) : State := { s with oq := s.oq.filter fun e => e.frame.kind != .beacon }

/-- The beacon frame of R176. Its 8-byte payload exceeds a MAX_PAYLOAD below 8, which R8 admits, and its
L = 18 then exceeds MAX_FRAME (R80, R85): built all the same, DESIGN CHOICE [log 21]. -/
def beaconFrame (s : State) (ts : Bytes) : Frame :=
  ⟨.beacon, false, outSeqAt s bcast, bcast, s.cfg.myAddr, ts⟩

/-- Build and insert the beacon, or drop it where OQ is full counting the headroom (R176). MAX_PAYLOAD is not
tested: DESIGN CHOICE [log 21]. -/
def insertBeacon (ts : Bytes) (s : State) : State :=
  if occupancy s < s.cfg.oqCap + s.cfg.oqHeadroom then
    pushFrontOq (freshEntry (beaconFrame s ts)) (setOutSeq bcast (outSeqAt s bcast + 1) s)
  else s

/-- The beacon check with coalescing (R175, R176). -/
def beaconCheck (s : State) : State :=
  match maybeBeaconPayload s with
  | (none, s')    => s'
  | (some ts, s') => insertBeacon ts (removeBeacons s')

/-- ACK path entry: latch the front of OQ into ACKR; `ret` is ACK_RETURN (R200). -/
def enterAckPath (ret : Bool) (e : OutEntry) (rest : List OutEntry) (s : State) : State :=
  { s with
    oq := rest
    tx := { s.tx with
            ackr := e.frame, ackrValid := true, ackPhase := false, ackReturn := ret
            state := .sendAckSifs } }

/-- Enter a DIFS wait: TX_DEADLINE <- now() + roundedBackoffBase() (R180, R183). -/
def enterDifsWait (s : State) : State :=
  { s with tx := { s.tx with deadline := now s + roundedBackoffBase s, state := .difsWait } }

/-- Go to WAIT_CHANNEL_IDLE with NEED_BACKOFF set (R180, R181, R195). -/
def waitForIdle (s : State) : State :=
  { s with tx := { s.tx with needBackoff := true, state := .waitChannelIdle } }

/-- Load the front of OQ into TXH (R179). -/
def loadHead (e : OutEntry) (rest : List OutEntry) (s : State) : State :=
  { s with
    oq := rest
    tx := { s.tx with txh := { e with acked := false }, txhValid := true, needBackoff := false } }

/-- Initial channel check (R180). -/
def initialCheck (s : State) : State := if s.chan.busy then waitForIdle s else enterDifsWait s

/-- The front of OQ is served after the beacon check: nothing, the ACK path, or a load (R177 to R180). -/
def serveQueue (s : State) : State :=
  match s.oq with
  | []        => s
  | e :: rest =>
    if e.frame.kind = .ack then enterAckPath false e rest s
    else initialCheck (loadHead e rest s)

/-- IDLE (R174). -/
def txIdle (s : State) : State := serveQueue (beaconCheck s)

/-! ## DIFS_WAIT, WAIT_CHANNEL_IDLE and BACKOFF_SLOT -/

/-- TX_STATE <- TRANSMIT. -/
def toTransmit (s : State) : State := { s with tx := { s.tx with state := .transmit } }

/-- Start a backoff slot: TX_DEADLINE <- now() + SLOT_TIME in BACKOFF_SLOT (R184, R186). -/
def startSlot (s : State) : State :=
  { s with tx := { s.tx with deadline := now s + s.cfg.slotTime, state := .backoffSlot } }

/-- Backoff entry (R184). -/
def enterBackoff (s : State) : State := if s.cp.backoff = 0#16 then toTransmit s else startSlot s

/-- DIFS_WAIT (R181, R182). -/
def txDifsWait (s : State) : State :=
  if s.chan.busy then waitForIdle s
  else if s.tx.deadline ≤ now s then (if s.tx.needBackoff then enterBackoff s else toTransmit s)
  else s

/-- WAIT_CHANNEL_IDLE (R183). -/
def txWaitChannelIdle (s : State) : State := if s.chan.busy then s else enterDifsWait s

/-- Count one slot: BACKOFF <- BACKOFF - 1 (R186). -/
def countSlot (s : State) : State := { s with cp := { s.cp with backoff := s.cp.backoff - 1 } }

/-- BACKOFF_SLOT: pause when busy (R185), else the slot tick (R186), which transmits at 0 and else starts
the next slot as R184 does. -/
def txBackoffSlot (s : State) : State :=
  if s.chan.busy then { s with tx := { s.tx with state := .waitChannelIdle } }
  else if s.tx.deadline ≤ now s then enterBackoff (countSlot s)
  else s

/-! ## TRANSMIT -/

/-- TXH_VALID <- 0 and TX_STATE <- IDLE: the in-flight frame is resolved (R190, R192, R193). -/
def resolveHead (s : State) : State :=
  { s with tx := { s.tx with txhValid := false, state := .idle } }

/-- Unicast DATA: start the ACK timer and wait (R189). -/
def beginAckWait (s : State) : State :=
  let s' := startAckTimer s
  { s' with tx := { s'.tx with state := .awaitAck } }

/-- Fire-and-forget: BEACON, or DATA to BCAST, which alone records TX_DELIVERED (R190, C2). -/
def fireAndForget (s : State) : State :=
  reloadBackoff (resolveHead (if s.tx.txh.frame.kind = .data then record .txDelivered s else s))

/-- TRANSMIT (R188). -/
def txTransmit (s : State) : State :=
  let s' := chanTransmit (encodeFrame s.tx.txh.frame) s
  if isUnicastData s.tx.txh.frame then beginAckWait s' else fireAndForget s'

/-! ## AWAIT_ACK -/

/-- CW <- 1 (R192, R193). -/
def resetWindow (s : State) : State := { s with cp := { s.cp with cw := cwReset } }

/-- (1) Delivered (R192). -/
def headDelivered (s : State) : State := reloadBackoff (resetWindow (resolveHead (record .txDelivered s)))

/-- Remove(OQ, e -> e.frame.dest == p) (R193, R194). -/
def purgePeer (p : Addr) (s : State) : State := { s with oq := s.oq.filter fun e => e.frame.dest != p }

/-- (2) Retry limit (R193). -/
def headFailed (s : State) : State :=
  let p := s.tx.txh.frame.dest
  reloadBackoff (purgePeer p (setOutSeq p 0#12 (resetWindow (resolveHead (record .txFailed s)))))

/-- TXH.retries <- TXH.retries + 1 and TXH.frame.retry <- 1 (R195). -/
def markRetry (s : State) : State :=
  { s with
    tx := { s.tx with
            txh := { s.tx.txh with
                     retries := s.tx.txh.retries + 1
                     frame   := { s.tx.txh.frame with retry := true } } } }

/-- CW <- min(2 * CW, CW_MAX) (R196). -/
def doubleWindow (s : State) : State := { s with cp := { s.cp with cw := doubledWindow s.cfg s.cp.cw } }

/-- (3) ACK timeout (R195). -/
def headTimedOut (s : State) : State := waitForIdle (markRetry (reloadBackoff (doubleWindow s)))

/-- The ACK service of R198, or the poll that changes nothing (R199). -/
def serveAckWhileWaiting (s : State) : State :=
  match s.oq with
  | []        => s
  | e :: rest => if e.frame.kind = .ack then enterAckPath true e rest s else s

/-- AWAIT_ACK, in the priority order of R191. -/
def txAwaitAck (s : State) : State :=
  if s.tx.txh.acked then headDelivered s
  else if s.cfg.retryLimit ≤ s.tx.txh.retries.toNat then headFailed s
  else if ackTimedOut s then headTimedOut s
  else serveAckWhileWaiting s

/-! ## SEND_ACK_SIFS -/

/-- Phase 0 to phase 1: TX_DEADLINE <- now() + SIFS_TIME (R201). -/
def startSifs (s : State) : State :=
  { s with tx := { s.tx with deadline := now s + s.cfg.sifsTime, ackPhase := true } }

/-- ACK transmit and return (R203). -/
def sendAck (s : State) : State :=
  let s' := chanTransmit (encodeFrame s.tx.ackr) s
  { s' with
    tx := { s'.tx with
            ackrValid := false, ackPhase := false, ackReturn := false
            state := if s.tx.ackReturn then .awaitAck else .idle } }

/-- SEND_ACK_SIFS (R201, R202): carrier sense is read in phase 0 only. -/
def txSendAckSifs (s : State) : State :=
  if s.tx.ackPhase then (if s.tx.deadline ≤ now s then sendAck s else s)
  else (if s.chan.busy then s else startSifs s)

/-! ## The step -/

/-- One TX step (R171, R172). TX_STATE = 7 is refused (R33). -/
def txStep (s : State) : Host.Outcome State Fault Refusal :=
  match s.tx.state with
  | .idle            => .next (txIdle s)
  | .difsWait        => .next (txDifsWait s)
  | .backoffSlot     => .next (txBackoffSlot s)
  | .transmit        => .next (txTransmit s)
  | .awaitAck        => .next (txAwaitAck s)
  | .waitChannelIdle => .next (txWaitChannelIdle s)
  | .sendAckSifs     => .next (txSendAckSifs s)
  | .unused          => .refused .unusedTxState

end Sys2Proof.Machine
end

