-- ==== Sys2Proof/Machine/Agents.lean ====
section
/-! DEFINITION. The agents' steps (20_memory.md R67, R70) and where the next one comes from. -/

namespace Sys2Proof.Machine

/-! ## The environment (R46) -/

/-- Tick(δ): CHAN_CLOCK <- CHAN_CLOCK + δ, modulo 2^64. R46 has δ ≥ 1; δ = 0 changes nothing [log 9]. -/
def envTick (delta : Time) (s : State) : State :=
  { s with chan := { s.chan with clock := s.chan.clock + delta } }

/-- Busy(b) (R46). -/
def envBusy (b : Bool) (s : State) : State := { s with chan := { s.chan with busy := b } }

/-- Arrive(bytes) (R46). -/
def envArrive (b : Bytes) (s : State) : State :=
  { s with chan := { s.chan with rxq := s.chan.rxq ++ [b] } }

/-- The environment drives CHAN_IDLE_TIME (R45) [log 7]. -/
def envIdleTime (d : Time) (s : State) : State := { s with chan := { s.chan with idleTime := d } }

/-! ## RX (R220, R221) -/

/-- What RX does with a byte string that gives no instruction: R223, or the dispatch of R222, which
ignores a reserved kind unless IQ is full (R225, R228). No host word arrives at RX. -/
def rxReject (r : Reject) (s : State) : State :=
  match r with
  | .corruptFrame   => dropCorrupt s
  | .reservedKind f => dispatch f s
  | .illegalWord    => s

/-- RX on the byte string it took off CHAN_RXQ (R221). -/
def rxFrame (b : Bytes) (s : State) : Host.Outcome State Fault Refusal :=
  match decodeFrame s.cfg b with
  | .ok i    => exec i s
  | .error r => .next (rxReject r s)

/-- One RX step: ChanRecv, DECODE, Dispatch (R221); RX holds while CHAN_RXQ is empty (R220). -/
def rxStep (s : State) : Host.Outcome State Fault Refusal :=
  match s.chan.rxq with
  | []        => .next s
  | b :: rest => rxFrame b { s with chan := { s.chan with rxq := rest } }

/-! ## HOST (R270) -/

/-- A host agent can issue a command: it exists (R44) and its command before is complete (R270). -/
def hostReady (h : Nat) (s : State) : Bool := hostExists s.cfg h && !(hostAt s h).blocked

/-- Host agent h issues a command (R270, R271); an agent that cannot, holds [log 8]. -/
def hostStep (h : Nat) (k : HostCommand) (s : State) : Host.Outcome State Fault Refusal :=
  if hostReady h s then
    match decodeHost h k with
    | .ok i    => exec i s
    | .error _ => .next (illegalWord h s)
  else .next s

/-- The completion step of agent h's RECV (R277): the RECV it is blocked in takes its second step. An
agent that is not blocked has none. -/
def completeStep (h : Nat) (s : State) : Host.Outcome State Fault Refusal :=
  if hostExists s.cfg h && (hostAt s h).blocked then exec (.recv h) s else .next s

/-! ## The scheduler (R67) -/

/-- The next step picked: the head of the schedule, else a free value [log 1, 2]. -/
def nextStep (s : State) : AgentStep :=
  match s.sched with
  | []     => Config.freeStep s.schedCount
  | a :: _ => a

/-- The pick is used up. -/
def consumePick (s : State) : State :=
  match s.sched with
  | []        => { s with schedCount := s.schedCount + 1 }
  | _ :: rest => { s with sched := rest }

/-- One atomic step of the agent picked (R66, R70). -/
def runAgent (a : AgentStep) (s : State) : Host.Outcome State Fault Refusal :=
  match a with
  | .tx         => txStep s
  | .rx         => rxStep s
  | .host h k   => hostStep h k s
  | .complete h => completeStep h s
  | .tick d     => .next (envTick d s)
  | .busy b     => .next (envBusy b s)
  | .arrive b   => .next (envArrive b s)
  | .idleTime d => .next (envIdleTime d s)

/-- One step of the station: refused where the configuration fails R8, else the agent picked steps. -/
def stationStep (s : State) : Host.Outcome State Fault Refusal :=
  if s.cfg.ok then runAgent (nextStep s) (consumePick s) else .refused .illegalConfiguration

/-- Put an encoded instruction where the next step runs it: a frame at the head of CHAN_RXQ with RX
picked, or a command picked on its agent's port with that agent free to issue. -/
def placeEncoded (e : Encoded) (s : State) : State :=
  match e with
  | .frame b  => { s with chan := { s.chan with rxq := b :: s.chan.rxq }, sched := .rx :: s.sched }
  | .host h k => { setHost h { hostAt s h with blocked := false } s with sched := .host h k :: s.sched }

end Sys2Proof.Machine
end

