-- ==== Sys2Proof/Machine/Step.lean ====
section
/-! DEFINITION. The step of the machine, and where the host places an instruction. -/

namespace Sys2Proof.Machine

/-- One atomic step of the agent the schedule picks (R66, R67). -/
def step (s : State) : Host.Outcome State Fault Refusal := stationStep s

/-- The state with the instruction of an opcode-table word placed where `step` takes its next one
[log 13]; a word that is no table word changes nothing. -/
def State.withFetchWord (s : State) (nbits w : Nat) : State :=
  match layTableWord nbits w with
  | none   => s
  | some e => placeEncoded e s

end Sys2Proof.Machine
end

