-- ==== Sys2Proof/Safety.lean ====
section
/-! DEFINITION. What holds of a state in every run: the invariants that the spec states of the block,
in the terms the claims use. -/

namespace Sys2Proof.Machine

/-! ## The tables' one form [log 14] -/

/-- Keys strictly rising, and no entry equal to what an unlisted key reads as. -/
abbrev TableCanonical {α : Type} (d : α) (t : Table α) : Prop :=
  (t.map Prod.fst).Pairwise (· < ·) ∧ ∀ e ∈ t, e.2 ≠ d

/-- Every key of a table is below a bound. -/
abbrev KeysBelow {α : Type} (n : Nat) (t : Table α) : Prop := ∀ e ∈ t, e.1 < n

/-- The per-address tables are canonical and their keys are 16-bit addresses (R39 to R41); the host
table is canonical and its keys are agent numbers 1..HOST_AGENTS (R44). -/
structure TablesCanonical (s : State) : Prop where
  outSeq     : TableCanonical 0#12 s.rx.outSeq
  inSeen     : TableCanonical false s.rx.inSeen
  inExp      : TableCanonical 0#12 s.rx.inExp
  win        : TableCanonical (emptyWindow s.cfg) s.rx.win
  hosts      : TableCanonical HostRegs.reset s.hosts
  outSeqKeys : KeysBelow 65536 s.rx.outSeq
  inSeenKeys : KeysBelow 65536 s.rx.inSeen
  inExpKeys  : KeysBelow 65536 s.rx.inExp
  winKeys    : KeysBelow 65536 s.rx.win
  hostKeys   : ∀ e ∈ s.hosts, 1 ≤ e.1 ∧ e.1 ≤ s.cfg.hostAgents

/-! ## Queues and status -/

/-- OQ and the in-flight frame together never exceed OQ_CAP + OQ_HEADROOM (R38, R176, R231), and IQ
never exceeds IQ_CAP (R43, R243). -/
structure QueuesBounded (s : State) : Prop where
  outbound : occupancy s ≤ s.cfg.oqCap + s.cfg.oqHeadroom
  inbound  : s.iq.length ≤ s.cfg.iqCap

/-- LAST_EVENT never holds 0 or a value above 10 (R29, R300). -/
def StatusLegal (s : State) : Prop := 1 ≤ s.cp.lastEvent.toNat ∧ s.cp.lastEvent.toNat ≤ 10

/-! ## The transmit unit (R173) -/

/-- The states in which a frame is in flight: those R173(a) lists. -/
def headInFlight (t : TxUnit) : Bool :=
  match t.state with
  | .difsWait | .waitChannelIdle | .backoffSlot | .transmit | .awaitAck => true
  | .sendAckSifs => t.ackReturn
  | .idle | .unused => false

/-- TX waits for the in-flight frame's ACK, or will again after the ACK it is sending (R189, R198). -/
def awaitingAck (t : TxUnit) : Bool :=
  match t.state with
  | .awaitAck    => true
  | .sendAckSifs => t.ackReturn
  | _            => false

/-- R173 (a) to (e), with what the induction needs beside them. -/
structure TransmitInvariant (s : State) : Prop where
  /-- R173(a). -/
  headValid    : s.tx.txhValid = headInFlight s.tx
  /-- R173(b). -/
  headKind     : s.tx.txhValid = true → s.tx.txh.frame.kind ≠ .ack
  /-- R173(c). -/
  ackrValid    : s.tx.ackrValid = decide (s.tx.state = .sendAckSifs)
  /-- R173(d). -/
  windowAtRest : s.tx.txhValid = false → s.cp.cw = cwReset
  /-- R173(e), the window. -/
  windowRange  : 1 ≤ s.cp.cw.toNat ∧ s.cp.cw.toNat ≤ max 1 s.cfg.cwMax
  /-- R173(e), the counter. -/
  backoffRange : s.cp.backoff.toNat ≤ s.cfg.cwMax
  /-- R204: after N timeouts of the frame in flight CW = min(2^N, CW_MAX) and retries = N. -/
  windowGrowth : s.tx.txhValid = true → s.cp.cw.toNat = min (2 ^ s.tx.txh.retries.toNat) s.cfg.cwMax
  /-- R193, R195: retries stop at the limit. -/
  retryRange   : s.tx.txhValid = true → s.tx.txh.retries.toNat ≤ s.cfg.retryLimit
  /-- R47, R195: the wire retry bit is set exactly by the timeout path. -/
  retryBit     : s.tx.txhValid = true → (s.tx.txh.frame.retry = true ↔ s.tx.txh.retries ≠ 0#8)
  /-- R188 to R190: only unicast DATA waits for an ACK. -/
  waitsUnicast : awaitingAck s.tx = true → isUnicastData s.tx.txh.frame = true
  /-- R86, R190: a beacon or a broadcast DATA frame is never retried. -/
  retriedUnicast : s.tx.txhValid = true → s.tx.txh.retries ≠ 0#8 → isUnicastData s.tx.txh.frame = true
  /-- R179: a queued frame has been neither sent nor retried. -/
  queuedFresh  : ∀ e ∈ s.oq, e = freshEntry e.frame ∧ e.frame.retry = false
  /-- R186: BACKOFF ≥ 1 in BACKOFF_SLOT. -/
  slotCounts   : s.tx.state = .backoffSlot → s.cp.backoff ≠ 0#16
  /-- R183, R185: NEED_BACKOFF is 1 in WAIT_CHANNEL_IDLE and in BACKOFF_SLOT. -/
  pausedNeeds  : s.tx.state = .waitChannelIdle ∨ s.tx.state = .backoffSlot → s.tx.needBackoff = true
  /-- R33: no rule enters TX_STATE = 7. -/
  stateUsed    : s.tx.state ≠ .unused

/-! ## The receive unit (R40, R41) -/

/-- The window of source `a` with expected sequence `e`: W slots, and "slot `i` holds sequence
`expected+i+1`" (R41), of a DATA frame from `a`. -/
structure WindowAligned (slots : Nat) (a : Addr) (e : Seq) (w : Window) : Prop where
  length : w.length = slots
  slot   : ∀ i c, w[i]? = some (some c) → c.src = a ∧ c.kind = .data ∧ c.seq = e + BitVec.ofNat 12 (i + 1)

/-- Every source's window is aligned (R41), and an unseen source's expected sequence reads 0 and its
window empty (R40, R41). -/
structure ReceiveInvariant (s : State) : Prop where
  aligned : ∀ a, WindowAligned s.cfg.winSlots a (inExpAt s a) (windowAt s a)
  unseen  : ∀ a, inSeenAt s a = false → inExpAt s a = 0#12 ∧ windowAt s a = emptyWindow s.cfg

/-! ## Frames (R86) -/

/-- A frame of a form R86 lists: from this station, and of the retry bit, destination and payload its
kind has. A beacon has 8 bytes, also under a MAX_PAYLOAD below 8 [log 21]. -/
def frameShaped (c : Config) (f : Frame) : Bool :=
  f.src == c.myAddr &&
  match f.kind with
  | .data   => decide (f.payload.length ≤ c.maxPayload) && (!f.retry || !isBroadcast f.dest)
  | .ack    => !f.retry && f.payload.isEmpty
  | .beacon => !f.retry && isBroadcast f.dest && decide (f.payload.length = 8)

/-- Every frame queued, in flight or being sent as an ACK has a form of R86, and every byte string in
CHAN_TXLOG is the encoding of such a frame. -/
structure FramesShaped (s : State) : Prop where
  queued : ∀ e ∈ s.oq, frameShaped s.cfg e.frame = true
  head   : s.tx.txhValid = true → frameShaped s.cfg s.tx.txh.frame = true
  ackr   : s.tx.ackrValid = true → frameShaped s.cfg s.tx.ackr = true ∧ s.tx.ackr.kind = .ack
  sent   : ∀ b ∈ s.chan.txlog, ∃ f : Frame, frameShaped s.cfg f = true ∧ b = encodeFrame f

/-! ## Terms of the per-instruction claims -/

/-- Of the host agents' registers, only RESULT[h] may differ, and it is v. -/
def ResultOnly (h : Nat) (v : Word32) (s t : State) : Prop :=
  hostAt t h = { hostAt s h with result := v } ∧ ∀ g, g ≠ h → hostAt t g = hostAt s g

/-- The tracker's state of every source but `a` is the same, and so are OUT_SEQ and BC_EXP. -/
def OtherSourcesKept (a : Addr) (s t : State) : Prop :=
  (∀ b, b ≠ a → inSeenAt t b = inSeenAt s b ∧ inExpAt t b = inExpAt s b ∧ windowAt t b = windowAt s b)
    ∧ t.rx.outSeq = s.rx.outSeq ∧ t.rx.bcExp = s.rx.bcExp

/-- The expected sequence of a source, "0 if unseen" (R40, R234). -/
def expectedFrom (s : State) (a : Addr) : Seq := if inSeenAt s a then inExpAt s a else 0#12

/-- The reorder window of a source, empty if unseen (R41, R234). -/
def windowFrom (s : State) (a : Addr) : Window := if inSeenAt s a then windowAt s a else emptyWindow s.cfg

/-- OQ with an ACK for sequence n to `a` at its front where there is room, else as it was (R231). -/
def oqWithAck (s : State) (a : Addr) (n : Seq) : List OutEntry :=
  if occupancy s < s.cfg.oqCap + s.cfg.oqHeadroom then
    ⟨⟨.ack, false, n, a, s.cfg.myAddr, []⟩, false, 0#8⟩ :: s.oq
  else s.oq

/-- The backoff counter after a draw in a window `cw`: CW if FIXED_SLOT, else any value up to it (R197). -/
def DrawnFrom (fixedSlot : Bool) (cw backoff : BitVec 16) : Prop :=
  backoff.toNat ≤ cw.toNat ∧ (fixedSlot = true → backoff = cw)

/-- A byte string with bit j of byte i flipped (R119). -/
def flipBit (b : Bytes) (i j : Nat) : Bytes := b.set i (byteAt b i ^^^ (1#8 <<< j))

/-- The frame that a data, ack or beacon instruction is (R11). -/
def receivedFrame : Instr → Option RxFrame
  | .data r n d a p   => some ⟨.data, r, n, d, a, p⟩
  | .ack r n d a p    => some ⟨.ack, r, n, d, a, p⟩
  | .beacon r n d a p => some ⟨.beacon, r, n, d, a, p⟩
  | .send .. | .recv .. | .status .. | .cmdHelp .. | .cmdDebug .. | .cmdSlotsel .. | .cmdBeacon .. => none

/-- A broadcast frame passes the filter: its sequence is not behind BC_EXP (R240). -/
def PassesFilter (n e : Seq) : Prop := seqDistance n e ≤ 2047

/-- Case 2 of the dispatch applies (R222): a broadcast beacon, beacons enabled, not behind. -/
def BeaconCase (d : RxFrame) (s : State) : Prop :=
  d.kind = .beacon ∧ d.dest = bcast ∧ s.cp.beaconEn = true ∧ PassesFilter d.seq s.rx.bcExp

/-- Every invariant together. -/
structure Sound (s : State) : Prop where
  tables   : TablesCanonical s
  queues   : QueuesBounded s
  status   : StatusLegal s
  transmit : TransmitInvariant s
  receive  : ReceiveInvariant s
  frames   : FramesShaped s

end Sys2Proof.Machine
end

