-- ==== Sys2Proof/Certificates/Slice0/Obligations.lean ====
section
/-! DEFINITION. The statements for the provers. Each docstring names the rule it formalises; a statement
that rests on a choice of the model says so and names the log entry. A conclusion of the form
`t = { s with … t.hosts … }` is a frame: everything of the state that it does not name is as in `s`. -/

open Sys2Proof Sys2Proof.Machine

/-! ## The codec -/

/-- R116: every frame within bounds decodes from its encoding, with a good checksum. -/
def Obligations.DecodeInvertsEncodeOnFrames : Prop :=
  ∀ (c : Config) (f : Frame), c.maxFrame = c.maxPayload + 10 → f.payload.length ≤ c.maxPayload →
    decodeBytes c (encodeFrame f)
      = .ok ⟨rxKindOf f.kind, f.retry, f.seq, f.dest, f.src, f.payload⟩

/-- Decode and encode agree on every well-formed instruction, frame or host command (R112, R114, R271). -/
def Obligations.DecodeInvertsEncodeOnInstructions : Prop :=
  ∀ (c : Config) (i : Instr), c.maxFrame = c.maxPayload + 10 → i.wellFormed c = true →
    decode c (encode i) = .ok i

/-- R119: one flipped bit, anywhere in a byte string that decodes, makes it Corrupt. The spec marks the
checksum part as its own: "every single-bit flip anywhere in the frame, checksum included ... [from
general knowledge, not in source: a property of CRC-32]". -/
def Obligations.FlippedBitIsCorrupt : Prop :=
  ∀ (c : Config) (b : Bytes) (i j : Nat), decodeBytes c b ≠ .corrupt → i < b.length → j < 8 →
    decodeBytes c (flipBit b i j) = .corrupt

/-- R117 and R223: exactly when a byte string is Corrupt, and that RX then records UNSPECIFIED_ERROR and
writes nothing else. -/
def Obligations.CorruptVerdictExactly : Prop :=
  ∀ (c : Config) (b : Bytes),
    (decodeBytes c b = .corrupt ↔
      b.length < 10 ∨ c.maxFrame < b.length
        ∨ rdBE32 b (b.length - 4) ≠ crc32 (b.take (b.length - 4)))
    ∧ ∀ s : State, s.cfg = c → decodeBytes c b = .corrupt →
        rxFrame b s = .next { s with cp := { s.cp with lastEvent := 2#8 } }

/-- R118 and R228: a frame of a reserved kind with a good checksum is Ok with kind OTHER(c), and RX with
room in IQ ignores it. -/
def Obligations.ReservedKindIsOtherAndIgnored : Prop :=
  ∀ (c : Config) (code : BitVec 3) (retry : Bool) (seq : Seq) (dest src : Addr) (p : Bytes),
    3 ≤ code.toNat → c.maxFrame = c.maxPayload + 10 → p.length ≤ c.maxPayload →
    decodeBytes c (sealBody (frameBody (packCtl code retry seq) dest src p))
        = .ok ⟨.other code, retry, seq, dest, src, p⟩
      ∧ ∀ s : State, s.cfg = c → s.iq.length ≠ c.iqCap →
          rxFrame (sealBody (frameBody (packCtl code retry seq) dest src p)) s = .next s

/-- R271: the host decode looks at OP, and at CODE only when OP is CMD; every other word is illegal. -/
def Obligations.HostWordDecodesByOpAndCode : Prop :=
  ∀ (h : Nat) (k : HostCommand),
    let op := k.word.toNat / 2 ^ 24
    let code := k.word.toNat / 2 ^ 16 % 2 ^ 8
    (op = 1 → decodeHost h k = .ok (.send h (BitVec.ofNat 16 k.word.toNat) k.payload))
    ∧ (op = 2 → decodeHost h k = .ok (.recv h))
    ∧ (op = 3 → decodeHost h k = .ok (.status h))
    ∧ (op = 4 ∧ code = 0 → decodeHost h k = .ok (.cmdHelp h))
    ∧ (op = 4 ∧ code = 1 → decodeHost h k = .ok (.cmdDebug h k.value))
    ∧ (op = 4 ∧ code = 2 → decodeHost h k = .ok (.cmdSlotsel h k.value))
    ∧ (op = 4 ∧ code = 3 → decodeHost h k = .ok (.cmdBeacon h k.value))
    ∧ (op = 0 ∨ 5 ≤ op ∨ op = 4 ∧ 4 ≤ code → decodeHost h k = .error .illegalWord)

/-- Words written out from R82, R83, R88 and R89, and two byte strings of 95_test_vectors.md (V2, V4),
decode to the instructions they stand for. The kind codes, the command codes and the CRC are the spec's
own inferences, marked from general knowledge (93_implementation_defined.md G1, G5, G3); agent 1, and the
operands 0 that a table word has no bits for, are the model's choice (log 13). -/
def Obligations.WrittenOutWordsDecode : Prop :=
  decodeTableWord 16 0x0000 = some (.data false 0#12 0#16 0#16 [])
  ∧ decodeTableWord 16 0x3005 = some (.ack true 5#12 0#16 0#16 [])
  ∧ decodeTableWord 16 0x4FFF = some (.beacon false 4095#12 0#16 0#16 [])
  ∧ decodeTableWord 16 0x6000 = none
  ∧ decodeTableWord 32 0x01AB0002 = some (.send 1 2#16 [])
  ∧ decodeTableWord 32 0x03FFFFFF = some (.status 1)
  ∧ decodeTableWord 32 0x04030000 = some (.cmdBeacon 1 0#32)
  ∧ decodeTableWord 32 0x04040000 = none
  ∧ (decodeFrame Config.reference [0x20, 0x00, 0x00, 0x01, 0x00, 0x02, 0x59, 0xA2, 0xAF, 0x8E]).toOption
      = some (.ack false 0#12 1#16 2#16 [])
  ∧ (decodeFrame Config.reference
        [0x1A, 0xBC, 0xFF, 0xFF, 0x12, 0x34, 0x68, 0x69, 0x01, 0x14, 0x51, 0x15]).toOption
      = some (.data true 0xABC#12 0xFFFF#16 0x1234#16 [0x68, 0x69])

/-! ## The host commands -/

/-- R273: a SEND with an oversized payload records BAD_BUFFER_SIZE, returns 0 and writes nothing else. -/
def Obligations.SendOversizedIsRejected : Prop :=
  ∀ (h : Nat) (a : Addr) (p : Bytes) (s : State), s.cfg.maxPayload < p.length →
    ∃ t, exec (.send h a p) s = .next t
      ∧ t = { s with cp := { s.cp with lastEvent := 6#8 }, hosts := t.hosts } ∧ ResultOnly h 0#32 s t

/-- R275: a SEND that finds the outbound queue full records INSUFFICIENT_BUFFER_SPACE, returns 0 and
writes nothing else. -/
def Obligations.SendToFullQueueIsRejected : Prop :=
  ∀ (h : Nat) (a : Addr) (p : Bytes) (s : State), p.length ≤ s.cfg.maxPayload →
    s.cfg.oqCap ≤ s.oq.length + (if s.tx.txhValid then 1 else 0) →
    ∃ t, exec (.send h a p) s = .next t
      ∧ t = { s with cp := { s.cp with lastEvent := 10#8 }, hosts := t.hosts } ∧ ResultOnly h 0#32 s t

/-- R274: an accepted SEND queues the DATA frame at the back, advances OUT_SEQ[a] modulo 4096 and returns
the payload's length; LAST_EVENT and everything else stay. -/
def Obligations.SendIsQueued : Prop :=
  ∀ (h : Nat) (a : Addr) (p : Bytes) (s : State), p.length ≤ s.cfg.maxPayload →
    s.oq.length + (if s.tx.txhValid then 1 else 0) < s.cfg.oqCap →
    ∃ t, exec (.send h a p) s = .next t
      ∧ t = { s with
              oq := s.oq ++ [⟨⟨.data, false, outSeqAt s a, a, s.cfg.myAddr, p⟩, false, 0#8⟩]
              rx := { s.rx with outSeq := t.rx.outSeq }
              hosts := t.hosts }
      ∧ (outSeqAt t a).toNat = ((outSeqAt s a).toNat + 1) % 4096
      ∧ (∀ b, b ≠ a → outSeqAt t b = outSeqAt s b)
      ∧ ResultOnly h (BitVec.ofNat 32 p.length) s t

/-- R277: RECV's issue step blocks its agent; its completion step returns the front of IQ and unblocks
it; while IQ is empty the blocked agent holds. LAST_EVENT is not written. OP 0x02 encodes it. That one
meaning is both steps, told apart by H_BLOCKED, is the model's reading (DEDUCED, log 11); that the hold is a
step that changes nothing, where R277 has no step, is the model's choice (DESIGN CHOICE, log 8). -/
def Obligations.RecvIssuesThenCompletes : Prop :=
  ∀ (h : Nat) (s : State),
    (∀ k : HostCommand, k.word.toNat / 2 ^ 24 = 2 → decodeHost h k = .ok (.recv h))
    ∧ ((hostAt s h).blocked = false →
      ∃ t, exec (.recv h) s = .next t ∧ t = { s with hosts := t.hosts }
        ∧ hostAt t h = { hostAt s h with blocked := true } ∧ ∀ g, g ≠ h → hostAt t g = hostAt s g)
    ∧ (∀ e rest, (hostAt s h).blocked = true → s.iq = e :: rest →
        ∃ t, exec (.recv h) s = .next t ∧ t = { s with iq := rest, hosts := t.hosts }
          ∧ hostAt t h = ⟨false, BitVec.ofNat 32 e.payload.length, e.src, e.payload⟩
          ∧ ∀ g, g ≠ h → hostAt t g = hostAt s g)
    ∧ ((hostAt s h).blocked = true → s.iq = [] → exec (.recv h) s = .next s)

/-- R280: STATUS (OP 0x03) returns LAST_EVENT zero-extended and changes nothing else. -/
def Obligations.StatusReturnsLastEvent : Prop :=
  ∀ (h : Nat) (s : State),
    (∀ k : HostCommand, k.word.toNat / 2 ^ 24 = 3 → decodeHost h k = .ok (.status h))
    ∧ ∃ t, exec (.status h) s = .next t ∧ t = { s with hosts := t.hosts }
      ∧ ResultOnly h (BitVec.ofNat 32 s.cp.lastEvent.toNat) s t

/-- R283: CMD.HELP (OP 0x04, CODE 0x00, whatever VALUE is) writes RESULT, with 0, and nothing else. -/
def Obligations.HelpWritesOnlyResult : Prop :=
  ∀ (h : Nat) (s : State),
    (∀ k : HostCommand, k.word.toNat / 2 ^ 16 = 0x0400 → decodeHost h k = .ok (.cmdHelp h))
    ∧ ∃ t, exec (.cmdHelp h) s = .next t ∧ t = { s with hosts := t.hosts } ∧ ResultOnly h 0#32 s t

/-- R284: CMD.DEBUG (OP 0x04, CODE 0x01) stores VALUE in DEBUG and returns 0. That no other rule reads
DEBUG has its own statement. -/
def Obligations.DebugStoresValue : Prop :=
  ∀ (h : Nat) (v : Word32) (s : State),
    (∀ k : HostCommand, k.word.toNat / 2 ^ 16 = 0x0401 → decodeHost h k = .ok (.cmdDebug h k.value))
    ∧ ∃ t, exec (.cmdDebug h v) s = .next t
      ∧ t = { s with cp := { s.cp with debug := v }, hosts := t.hosts } ∧ ResultOnly h 0#32 s t

/-- R285: CMD.SLOTSEL (OP 0x04, CODE 0x02) selects fixed slots with every VALUE but 0, and returns 0;
BACKOFF is not redrawn. That non-zero is fixed is the spec's own inference: "The polarity (non-zero =
fixed) is from the original project [from general knowledge, not in source]". -/
def Obligations.SlotselSelectsFixedUnlessZero : Prop :=
  ∀ (h : Nat) (v : Word32) (s : State),
    (∀ k : HostCommand, k.word.toNat / 2 ^ 16 = 0x0402 → decodeHost h k = .ok (.cmdSlotsel h k.value))
    ∧ ∃ t, exec (.cmdSlotsel h v) s = .next t
      ∧ t = { s with cp := { s.cp with fixedSlot := t.cp.fixedSlot }, hosts := t.hosts }
      ∧ (t.cp.fixedSlot = true ↔ v.toNat ≠ 0) ∧ ResultOnly h 0#32 s t

/-- R286: CMD.BEACON (OP 0x04, CODE 0x03): a VALUE that is negative as a signed number disables beacons
and keeps the interval; any other enables them with interval VALUE * BEACON_UNIT on 64 bits. LAST_BEACON stays, so a beacon is due when
now() - LAST_BEACON has reached the interval. -/
def Obligations.BeaconCommandSetsInterval : Prop :=
  ∀ (h : Nat) (v : Word32) (s : State),
    (∀ k : HostCommand, k.word.toNat / 2 ^ 16 = 0x0403 → decodeHost h k = .ok (.cmdBeacon h k.value))
    ∧ (2 ^ 31 ≤ v.toNat →
      ∃ t, exec (.cmdBeacon h v) s = .next t
        ∧ t = { s with cp := { s.cp with beaconEn := false }, hosts := t.hosts } ∧ ResultOnly h 0#32 s t)
    ∧ (v.toNat < 2 ^ 31 →
      ∃ t, exec (.cmdBeacon h v) s = .next t
        ∧ t = { s with
                cp := { s.cp with
                        beaconEn := true
                        beaconInterval := BitVec.ofNat 64 (v.toNat * s.cfg.beaconUnit.toNat) }
                hosts := t.hosts }
        ∧ ResultOnly h 0#32 s t
        ∧ (beaconDue t = true ↔ t.cp.beaconInterval ≤ now s - s.cp.lastBeacon))

/-- R288: an illegal word records ILLEGAL_ARGUMENT, returns 0, writes nothing else, and leaves the port
usable. -/
def Obligations.IllegalWordIsRejected : Prop :=
  ∀ (h : Nat) (k : HostCommand) (s : State), decodeHost h k = .error .illegalWord → hostReady h s = true →
    ∃ t, hostStep h k s = .next t
      ∧ t = { s with cp := { s.cp with lastEvent := 9#8 }, hosts := t.hosts }
      ∧ ResultOnly h 0#32 s t ∧ hostReady h t = true

/-- R32, R61, R302: whatever command a host agent issues, OFFSET, CW, BACKOFF, ACK_WAIT_START and
LAST_BEACON, the transmit unit, the tracker, BC_EXP and the channel are out of its reach; OQ only grows
at its back; IQ only loses its front; and LAST_EVENT changes only to one of the three rejection codes. -/
def Obligations.HostReachesOnlyItsRegisters : Prop :=
  ∀ (h : Nat) (k : HostCommand) (s t : State), hostStep h k s = .next t ∨ completeStep h s = .next t →
    t = { s with
          cp := { s.cp with
                  beaconEn := t.cp.beaconEn, beaconInterval := t.cp.beaconInterval
                  lastEvent := t.cp.lastEvent, debug := t.cp.debug, fixedSlot := t.cp.fixedSlot }
          oq := t.oq, rx := { s.rx with outSeq := t.rx.outSeq }, iq := t.iq, hosts := t.hosts }
    ∧ (t.oq = s.oq ∨ ∃ e, t.oq = s.oq ++ [e])
    ∧ (t.iq = s.iq ∨ ∃ e, s.iq = e :: t.iq)
    ∧ (t.cp.lastEvent = s.cp.lastEvent ∨ t.cp.lastEvent = 6#8 ∨ t.cp.lastEvent = 9#8 ∨ t.cp.lastEvent = 10#8)

/-! ## Reception of the three frame kinds -/

/-- R233, R234, R231, R235: a DATA frame to this station with the expected sequence is delivered, ACKed at
the front of OQ (where there is room) and advances IN_EXP to n + 1, with the source seen and its window as it
was (empty on a first sighting): that state is `u`. In every case the outcome is Drain of `u`, whose run of
deliveries has its own statement. With slot 0 empty nothing more is delivered. -/
def Obligations.InOrderDataIsDelivered : Prop :=
  ∀ (retry : Bool) (n : Seq) (src : Addr) (p : Bytes) (s : State),
    s.iq.length ≠ s.cfg.iqCap → s.cfg.myAddr ≠ bcast → n = expectedFrom s src →
    ∃ u t : State, exec (.data retry n s.cfg.myAddr src p) s = .next t
      ∧ u = { s with oq := oqWithAck s src n, rx := u.rx, iq := s.iq ++ [⟨src, n, .data, p⟩] }
      ∧ inSeenAt u src = true ∧ inExpAt u src = n + 1 ∧ windowAt u src = windowFrom s src
      ∧ OtherSourcesKept src s u
      ∧ t = drain src u
      ∧ (s.iq ++ [⟨src, n, .data, p⟩]) <+: t.iq ∧ t.oq = u.oq ∧ inSeenAt t src = true
      ∧ ((windowFrom s src).head? = some none →
          t.iq = u.iq ∧ inExpAt t src = n + 1 ∧ t.cp = s.cp
            ∧ windowAt t src = (windowFrom s src).tail ++ [none])
      ∧ OtherSourcesKept src s t
      ∧ t = { s with
              cp := { s.cp with lastEvent := t.cp.lastEvent }, oq := t.oq, rx := t.rx, iq := t.iq }

/-- R235: Drain delivers the run of buffered frames from slot 0 while IQ has room, advancing IN_EXP by one
and shifting the window by one for each, and shifts once more past what ends it: the gap, or (with a
status and the frame discarded) the frame that found IQ full, or the end of a full window. -/
def Obligations.DrainDeliversUntilGapOrFull : Prop :=
  ∀ (src : Addr) (s : State) (run : List InEntry) (rest : Window),
    s.iq.length + run.length ≤ s.cfg.iqCap →
    (windowAt s src = run.map some ++ none :: rest → (windowAt s src).length = s.cfg.winSlots →
      ∃ t, drain src s = t
        ∧ t = { s with iq := s.iq ++ run, rx := t.rx }
        ∧ windowAt t src = rest ++ List.replicate (run.length + 1) none
        ∧ inExpAt t src = inExpAt s src + BitVec.ofNat 12 run.length
        ∧ inSeenAt t src = inSeenAt s src ∧ OtherSourcesKept src s t)
    ∧ (∀ c, windowAt s src = run.map some ++ some c :: rest → (windowAt s src).length = s.cfg.winSlots →
      s.iq.length + run.length = s.cfg.iqCap →
      ∃ t, drain src s = t
        ∧ t = { s with cp := { s.cp with lastEvent := 10#8 }, iq := s.iq ++ run, rx := t.rx }
        ∧ windowAt t src = rest ++ List.replicate (run.length + 1) none
        ∧ inExpAt t src = inExpAt s src + BitVec.ofNat 12 run.length
        ∧ inSeenAt t src = inSeenAt s src ∧ OtherSourcesKept src s t)
    ∧ (windowAt s src = run.map some → (windowAt s src).length = s.cfg.winSlots → 1 ≤ s.cfg.winSlots →
      ∃ t, drain src s = t
        ∧ t = { s with iq := s.iq ++ run, rx := t.rx }
        ∧ windowAt t src = emptyWindow s.cfg
        ∧ inExpAt t src = inExpAt s src + BitVec.ofNat 12 run.length
        ∧ inSeenAt t src = inSeenAt s src ∧ OtherSourcesKept src s t)

/-- R236: a DATA frame to this station ahead of the expected sequence records the gap and is stored in
slot n - E - 1, overwriting it, if that is below W, else dropped; no ACK, no delivery. -/
def Obligations.AheadDataIsBuffered : Prop :=
  ∀ (retry : Bool) (n : Seq) (src : Addr) (p : Bytes) (s : State) (d : Nat),
    s.iq.length ≠ s.cfg.iqCap → s.cfg.myAddr ≠ bcast →
    d = (n.toNat + 4096 - (expectedFrom s src).toNat) % 4096 → 1 ≤ d → d ≤ 2047 →
    ∃ t, exec (.data retry n s.cfg.myAddr src p) s = .next t
      ∧ t = { s with cp := { s.cp with lastEvent := 2#8 }, rx := t.rx }
      ∧ windowAt t src
          = (if d - 1 < s.cfg.winSlots then (windowFrom s src).set (d - 1) (some ⟨src, n, .data, p⟩)
             else windowFrom s src)
      ∧ inExpAt t src = expectedFrom s src ∧ inSeenAt t src = true ∧ OtherSourcesKept src s t

/-- R237: a DATA frame to this station behind the expected sequence is ACKed again and not delivered. -/
def Obligations.BehindDataIsReAcked : Prop :=
  ∀ (retry : Bool) (n : Seq) (src : Addr) (p : Bytes) (s : State),
    s.iq.length ≠ s.cfg.iqCap → s.cfg.myAddr ≠ bcast →
    2048 ≤ (n.toNat + 4096 - (expectedFrom s src).toNat) % 4096 →
    ∃ t, exec (.data retry n s.cfg.myAddr src p) s = .next t
      ∧ t = { s with oq := oqWithAck s src n, rx := t.rx }
      ∧ windowAt t src = windowFrom s src ∧ inExpAt t src = expectedFrom s src
      ∧ inSeenAt t src = true ∧ OtherSourcesKept src s t

/-- R226, R240: a broadcast DATA frame that is not behind BC_EXP is delivered as it arrives, and advances
BC_EXP only when equal to it; no ACK and no status. -/
def Obligations.BroadcastDataIsDelivered : Prop :=
  ∀ (retry : Bool) (n : Seq) (src : Addr) (p : Bytes) (s : State), s.iq.length ≠ s.cfg.iqCap →
    (n.toNat + 4096 - s.rx.bcExp.toNat) % 4096 ≤ 2047 →
    exec (.data retry n bcast src p) s
      = .next { s with
                iq := s.iq ++ [⟨src, n, .data, p⟩]
                rx := { s.rx with bcExp := if n = s.rx.bcExp then n + 1 else s.rx.bcExp } }

/-- R228: with room in IQ, these change nothing: an ACK to this station that does not match; a frame to
another station; a beacon that fails case 2; broadcast DATA behind BC_EXP; a beacon to this station; an
ACK to BCAST; a frame of reserved kind. -/
def Obligations.IgnoredFramesChangeNothing : Prop :=
  ∀ (d : RxFrame) (s : State), s.iq.length ≠ s.cfg.iqCap → s.cfg.myAddr ≠ bcast →
    ((d.kind = .ack ∧ d.dest = s.cfg.myAddr
        ∧ (s.tx.txhValid = false ∨ s.tx.txh.frame.kind ≠ .data ∨ s.tx.txh.frame.dest ≠ d.src
            ∨ s.tx.txh.frame.seq ≠ d.seq))
      ∨ (d.dest ≠ s.cfg.myAddr ∧ d.dest ≠ bcast)
      ∨ (d.kind = .beacon ∧ ¬ BeaconCase d s)
      ∨ (d.kind = .data ∧ d.dest = bcast ∧ ¬ PassesFilter d.seq s.rx.bcExp)
      ∨ (d.kind = .beacon ∧ d.dest = s.cfg.myAddr)
      ∨ (d.kind = .ack ∧ d.dest = bcast)
      ∨ (∃ code, d.kind = .other code)) →
    dispatch d s = s ∧ ∀ i, receivedFrame i = some d → exec i s = .next s

/-- R225: with IQ full, every received frame but a beacon of case 2 records INSUFFICIENT_BUFFER_SPACE and
is dropped; nothing else is written. -/
def Obligations.FullQueueDropsEveryFrame : Prop :=
  ∀ (d : RxFrame) (s : State), s.iq.length = s.cfg.iqCap → ¬ BeaconCase d s →
    dispatch d s = { s with cp := { s.cp with lastEvent := 10#8 } }
    ∧ ∀ i, receivedFrame i = some d → exec i s = .next { s with cp := { s.cp with lastEvent := 10#8 } }

/-- R227, R230: an ACK to this station from the in-flight DATA frame's destination with its sequence sets
TXH.acked, whatever TX_STATE is, and writes nothing else. -/
def Obligations.MatchingAckMarksHead : Prop :=
  ∀ (retry : Bool) (n : Seq) (src : Addr) (p : Bytes) (s : State), s.iq.length ≠ s.cfg.iqCap →
    s.tx.txhValid = true → s.tx.txh.frame.kind = .data → s.tx.txh.frame.dest = src →
    s.tx.txh.frame.seq = n →
    exec (.ack retry n s.cfg.myAddr src p) s
      = .next { s with tx := { s.tx with txh := { s.tx.txh with acked := true } } }

/-- R224, R150: a broadcast beacon not behind BC_EXP, with beacons enabled, is absorbed even with IQ full:
BC_EXP advances if equal, and a timestamp greater than now() becomes now(); one of no more, or a payload
shorter than 8 bytes, moves no time. -/
def Obligations.BeaconIsAbsorbed : Prop :=
  ∀ (retry : Bool) (n : Seq) (src : Addr) (p : Bytes) (s : State), s.cp.beaconEn = true →
    (n.toNat + 4096 - s.rx.bcExp.toNat) % 4096 ≤ 2047 →
    ∃ t, exec (.beacon retry n bcast src p) s = .next t
      ∧ t = { s with
              cp := { s.cp with offset := t.cp.offset }
              rx := { s.rx with bcExp := if n = s.rx.bcExp then n + 1 else s.rx.bcExp } }
      ∧ (∀ ts : Time, be64 ts <+: p → now s < ts → now t = ts)
      ∧ (∀ ts : Time, be64 ts <+: p → ts ≤ now s → t.cp.offset = s.cp.offset)
      ∧ (p.length < 8 → t.cp.offset = s.cp.offset)

/-! ## The clock & policy operations -/

/-- R151: absorbBeacon with a timestamp no greater than now() is a no-op; with a greater one now() equals
it at once, and only OFFSET was written. -/
def Obligations.AbsorbSetsNow : Prop :=
  ∀ (remote : Time) (s : State),
    (remote ≤ now s → absorbBeacon remote s = s)
    ∧ (now s < remote →
        now (absorbBeacon remote s) = remote
        ∧ absorbBeacon remote s
            = { s with cp := { s.cp with offset := (absorbBeacon remote s).cp.offset } })

/-- R142: the wait of roundedBackoffBase() lies in [DIFS_TIME, DIFS_TIME + SLOT_BOUNDARY - 1] and ends on
a multiple of SLOT_BOUNDARY, where no sum passes 2^64 (what happens past it is the model's reading, DEDUCED,
log 19). -/
def Obligations.BackoffBaseEndsOnBoundary : Prop :=
  ∀ s : State, 1 ≤ s.cfg.slotBoundary.toNat →
    (now s).toNat + s.cfg.difsTime.toNat + s.cfg.slotBoundary.toNat < 2 ^ 64 →
    s.cfg.difsTime.toNat ≤ (roundedBackoffBase s).toNat
    ∧ (roundedBackoffBase s).toNat ≤ s.cfg.difsTime.toNat + s.cfg.slotBoundary.toNat - 1
    ∧ ((now s).toNat + (roundedBackoffBase s).toNat) % s.cfg.slotBoundary.toNat = 0

/-! ## The transmit unit, state by state -/

/-- R177 to R180, R200: IDLE with no beacon due: nothing on an empty OQ; the ACK path on an ACK at the
front; else the front is loaded and the channel checked. -/
def Obligations.IdleServesFront : Prop :=
  ∀ s : State, s.tx.state = .idle → beaconDue s = false →
    (s.oq = [] → txStep s = .next s)
    ∧ (∀ e rest, s.oq = e :: rest → e.frame.kind = .ack →
        txStep s = .next { s with
          oq := rest
          tx := { s.tx with
                  ackr := e.frame, ackrValid := true, ackPhase := false, ackReturn := false
                  state := .sendAckSifs } })
    ∧ (∀ e rest, s.oq = e :: rest → e.frame.kind ≠ .ack → s.chan.busy = true →
        txStep s = .next { s with
          oq := rest
          tx := { s.tx with
                  txh := { e with acked := false }, txhValid := true, needBackoff := true
                  state := .waitChannelIdle } })
    ∧ (∀ e rest, s.oq = e :: rest → e.frame.kind ≠ .ack → s.chan.busy = false →
        txStep s = .next { s with
          oq := rest
          tx := { s.tx with
                  txh := { e with acked := false }, txhValid := true, needBackoff := false
                  state := .difsWait, deadline := now s + roundedBackoffBase s } })

/-- R174 to R180, R200: IDLE with a beacon due. LAST_BEACON is now() in every case and pending beacons leave
OQ; `q` is what stays. With room, the new beacon takes the next broadcast sequence and is in flight after the
same step, waiting as carrier sense says. Without room (counting the headroom) it is lost, OUT_SEQ keeps, and
the front of `q` is served as with no beacon due. -/
def Obligations.IdleSendsDueBeacon : Prop :=
  ∀ s : State, s.tx.state = .idle → s.tx.txhValid = false → beaconDue s = true →
    let q := s.oq.filter fun e => e.frame.kind != .beacon
    let cp := { s.cp with lastBeacon := now s }
    (q.length < s.cfg.oqCap + s.cfg.oqHeadroom →
      ∃ t, txStep s = .next t
        ∧ t = { s with
                cp := cp, oq := q, rx := { s.rx with outSeq := t.rx.outSeq }
                tx := { s.tx with
                        txh := ⟨⟨.beacon, false, outSeqAt s bcast, bcast, s.cfg.myAddr, be64 (now s)⟩, false, 0#8⟩
                        txhValid := true
                        needBackoff := s.chan.busy
                        state := if s.chan.busy = true then .waitChannelIdle else .difsWait
                        deadline := if s.chan.busy = true then s.tx.deadline
                                    else now s + roundedBackoffBase s } }
        ∧ outSeqAt t bcast = outSeqAt s bcast + 1 ∧ ∀ a, a ≠ bcast → outSeqAt t a = outSeqAt s a)
    ∧ (s.cfg.oqCap + s.cfg.oqHeadroom ≤ q.length →
      (q = [] → txStep s = .next { s with cp := cp, oq := [] })
      ∧ (∀ e rest, q = e :: rest → e.frame.kind = .ack →
          txStep s = .next { s with
            cp := cp, oq := rest
            tx := { s.tx with
                    ackr := e.frame, ackrValid := true, ackPhase := false, ackReturn := false
                    state := .sendAckSifs } })
      ∧ (∀ e rest, q = e :: rest → e.frame.kind ≠ .ack → s.chan.busy = true →
          txStep s = .next { s with
            cp := cp, oq := rest
            tx := { s.tx with
                    txh := { e with acked := false }, txhValid := true, needBackoff := true
                    state := .waitChannelIdle } })
      ∧ (∀ e rest, q = e :: rest → e.frame.kind ≠ .ack → s.chan.busy = false →
          txStep s = .next { s with
            cp := cp, oq := rest
            tx := { s.tx with
                    txh := { e with acked := false }, txhValid := true, needBackoff := false
                    state := .difsWait, deadline := now s + roundedBackoffBase s } }))

/-- R181, R182, R184: DIFS_WAIT. A busy channel is tested first; at the deadline the frame goes to TRANSMIT
unless it needs a backoff and the counter is not 0, which starts a slot; BACKOFF is not redrawn. -/
def Obligations.DifsWaitBusyFirstThenDeadline : Prop :=
  ∀ s : State, s.tx.state = .difsWait →
    (s.chan.busy = true →
      txStep s = .next { s with tx := { s.tx with needBackoff := true, state := .waitChannelIdle } })
    ∧ (s.chan.busy = false → now s < s.tx.deadline → txStep s = .next s)
    ∧ (s.chan.busy = false → s.tx.deadline ≤ now s → s.tx.needBackoff = false ∨ s.cp.backoff = 0#16 →
        txStep s = .next { s with tx := { s.tx with state := .transmit } })
    ∧ (s.chan.busy = false → s.tx.deadline ≤ now s → s.tx.needBackoff = true → s.cp.backoff ≠ 0#16 →
        txStep s = .next { s with
          tx := { s.tx with state := .backoffSlot, deadline := now s + s.cfg.slotTime } })

/-- R183: WAIT_CHANNEL_IDLE leaves for DIFS_WAIT on an idle channel, with NEED_BACKOFF unchanged, and
stays on a busy one. -/
def Obligations.WaitChannelIdleReRunsDifs : Prop :=
  ∀ s : State, s.tx.state = .waitChannelIdle →
    (s.chan.busy = true → txStep s = .next s)
    ∧ (s.chan.busy = false →
        txStep s = .next { s with
          tx := { s.tx with state := .difsWait, deadline := now s + roundedBackoffBase s } })

/-- R185, R186: BACKOFF_SLOT. A busy channel pauses the countdown with BACKOFF and NEED_BACKOFF kept; at
the deadline one slot is counted, and the last one transmits. -/
def Obligations.BackoffSlotCountsIdleSlots : Prop :=
  ∀ s : State, s.tx.state = .backoffSlot → 1 ≤ s.cp.backoff.toNat →
    (s.chan.busy = true →
      txStep s = .next { s with tx := { s.tx with state := .waitChannelIdle } })
    ∧ (s.chan.busy = false → now s < s.tx.deadline → txStep s = .next s)
    ∧ (s.chan.busy = false → s.tx.deadline ≤ now s → s.cp.backoff.toNat = 1 →
        txStep s = .next { s with
          cp := { s.cp with backoff := 0#16 }, tx := { s.tx with state := .transmit } })
    ∧ (s.chan.busy = false → s.tx.deadline ≤ now s → 2 ≤ s.cp.backoff.toNat →
        txStep s = .next { s with
          cp := { s.cp with backoff := BitVec.ofNat 16 (s.cp.backoff.toNat - 1) }
          tx := { s.tx with deadline := now s + s.cfg.slotTime } })

/-- R188 to R190: TRANSMIT hands the encoded frame to the channel without reading carrier sense. Unicast
DATA starts the ACK timer and waits; a beacon or broadcast DATA is resolved, the latter with
TX_DELIVERED, and a new BACKOFF is drawn in the CW it leaves. -/
def Obligations.TransmitHandsFrameToChannel : Prop :=
  ∀ s : State, s.tx.state = .transmit →
    ∃ t, txStep s = .next t
      ∧ t.chan = { s.chan with txlog := s.chan.txlog ++ [encodeFrame s.tx.txh.frame] }
      ∧ (s.tx.txh.frame.kind = .data ∧ s.tx.txh.frame.dest ≠ bcast →
          t = { s with
                chan := t.chan, cp := { s.cp with ackWaitStart := now s }
                tx := { s.tx with state := .awaitAck } })
      ∧ (s.tx.txh.frame.kind ≠ .data ∨ s.tx.txh.frame.dest = bcast →
          t = { s with
                chan := t.chan
                cp := { s.cp with
                        backoff := t.cp.backoff
                        lastEvent := if s.tx.txh.frame.kind = .data then 4#8 else s.cp.lastEvent }
                tx := { s.tx with txhValid := false, state := .idle }
                drawCount := t.drawCount }
          ∧ DrawnFrom s.cp.fixedSlot s.cp.cw t.cp.backoff)

/-- R192, R197: an acknowledged head is delivered whatever its retries and the timer say; CW resets to 1
and BACKOFF is drawn from it. -/
def Obligations.AckedHeadIsDelivered : Prop :=
  ∀ s : State, s.tx.state = .awaitAck → s.tx.txh.acked = true →
    ∃ t, txStep s = .next t
      ∧ t = { s with
              cp := { s.cp with lastEvent := 4#8, cw := 1#16, backoff := t.cp.backoff }
              tx := { s.tx with txhValid := false, state := .idle }
              drawCount := t.drawCount }
      ∧ DrawnFrom s.cp.fixedSlot 1#16 t.cp.backoff

/-- R193, R194: an unacknowledged head at the retry limit fails before the timeout is tested: TX_FAILED, CW
1, the peer's OUT_SEQ 0, and every pending entry to the peer, of any kind, purged in order. -/
def Obligations.RetryLimitFailsHead : Prop :=
  ∀ s : State, s.tx.state = .awaitAck → s.tx.txh.acked = false →
    s.cfg.retryLimit ≤ s.tx.txh.retries.toNat →
    ∃ t, txStep s = .next t
      ∧ t = { s with
              cp := { s.cp with lastEvent := 5#8, cw := 1#16, backoff := t.cp.backoff }
              tx := { s.tx with txhValid := false, state := .idle }
              oq := s.oq.filter fun e => e.frame.dest != s.tx.txh.frame.dest
              rx := { s.rx with outSeq := t.rx.outSeq }
              drawCount := t.drawCount }
      ∧ outSeqAt t s.tx.txh.frame.dest = 0#12
      ∧ (∀ a, a ≠ s.tx.txh.frame.dest → outSeqAt t a = outSeqAt s a)
      ∧ DrawnFrom s.cp.fixedSlot 1#16 t.cp.backoff

/-- R195 to R197, R153: an ACK timeout below the retry limit doubles CW up to CW_MAX, draws BACKOFF from
the new CW, counts the retry, sets the retry bit and waits for the channel; the frame keeps its sequence
and payload, and no status is recorded. -/
def Obligations.AckTimeoutRetransmits : Prop :=
  ∀ s : State, s.tx.state = .awaitAck → s.tx.txh.acked = false →
    s.tx.txh.retries.toNat < s.cfg.retryLimit → s.cfg.cwMax ≤ 0xFFFF →
    s.cfg.ackTimeout ≤ now s - s.cp.ackWaitStart →
    ∃ t, txStep s = .next t
      ∧ t = { s with
              cp := { s.cp with cw := t.cp.cw, backoff := t.cp.backoff }
              tx := { s.tx with
                      state := .waitChannelIdle, needBackoff := true
                      txh := { s.tx.txh with
                               retries := s.tx.txh.retries + 1
                               frame := { s.tx.txh.frame with retry := true } } }
              drawCount := t.drawCount }
      ∧ t.cp.cw.toNat = min (2 * s.cp.cw.toNat) s.cfg.cwMax
      ∧ DrawnFrom s.cp.fixedSlot t.cp.cw t.cp.backoff

/-- R198 to R200: a wait with none of the three outcomes serves an ACK at the front of OQ, keeping the
frame in flight and its timer, and else changes nothing. -/
def Obligations.AwaitAckServesAckOrPolls : Prop :=
  ∀ s : State, s.tx.state = .awaitAck → s.tx.txh.acked = false →
    s.tx.txh.retries.toNat < s.cfg.retryLimit → now s - s.cp.ackWaitStart < s.cfg.ackTimeout →
    (∀ e rest, s.oq = e :: rest → e.frame.kind = .ack →
      txStep s = .next { s with
        oq := rest
        tx := { s.tx with
                ackr := e.frame, ackrValid := true, ackPhase := false, ackReturn := true
                state := .sendAckSifs } })
    ∧ (s.oq = [] → txStep s = .next s)
    ∧ (∀ e rest, s.oq = e :: rest → e.frame.kind ≠ .ack → txStep s = .next s)

/-- R201 to R203: SEND_ACK_SIFS. Phase 0 waits for an idle channel and starts the SIFS; phase 1 sends at
the deadline whatever the channel does, and returns where it came from; CW, BACKOFF, the ACK timer and
LAST_EVENT are not touched. -/
def Obligations.AckGoesAfterSifs : Prop :=
  ∀ s : State, s.tx.state = .sendAckSifs →
    (s.tx.ackPhase = false → s.chan.busy = true → txStep s = .next s)
    ∧ (s.tx.ackPhase = false → s.chan.busy = false →
        txStep s = .next { s with
          tx := { s.tx with deadline := now s + s.cfg.sifsTime, ackPhase := true } })
    ∧ (s.tx.ackPhase = true → now s < s.tx.deadline → txStep s = .next s)
    ∧ (s.tx.ackPhase = true → s.tx.deadline ≤ now s →
        txStep s = .next { s with
          chan := { s.chan with txlog := s.chan.txlog ++ [encodeFrame s.tx.ackr] }
          tx := { s.tx with
                  ackrValid := false, ackPhase := false, ackReturn := false
                  state := if s.tx.ackReturn = true then .awaitAck else .idle } })

/-! ## Reset and the invariants -/

/-- R330, R49: what reset leaves, for every configuration and every initial clock and carrier sense. -/
def Obligations.ResetLeavesSpecValues : Prop :=
  ∀ (c : Config) (clock : Time) (busy : Bool),
    let s := State.resetWith c clock busy
    s.cp = ⟨0#64, false, 0#64, 0#64, 1#16, 0#16, 0#64, 1#8, 0#32, false⟩
    ∧ s.tx.state = .idle ∧ s.tx.txhValid = false ∧ s.tx.deadline = 0#64 ∧ s.tx.needBackoff = false
    ∧ s.tx.ackrValid = false ∧ s.tx.ackPhase = false ∧ s.tx.ackReturn = false
    ∧ s.oq = [] ∧ s.iq = [] ∧ s.rx.bcExp = 0#12
    ∧ (∀ a, outSeqAt s a = 0#12 ∧ inSeenAt s a = false ∧ inExpAt s a = 0#12
          ∧ windowAt s a = List.replicate c.winSlots none)
    ∧ (∀ h, hostAt s h = ⟨false, 0#32, 0#16, []⟩)
    ∧ s.chan.clock = clock ∧ s.chan.busy = busy ∧ s.chan.rxq = [] ∧ s.chan.txlog = [] ∧ s.cfg = c

/-- Every invariant below holds right after reset, in every legal configuration. -/
def Obligations.ResetMeetsEveryInvariant : Prop :=
  ∀ (c : Config) (clock : Time) (busy : Bool), c.ok = true → Sound (State.resetWith c clock busy)

/-- R173 (a) to (e), with R204's growth of the window and R193's bound on the retries: every step of every
agent keeps them. -/
def Obligations.EveryStepKeepsTransmitInvariant : Prop :=
  ∀ s t : State, TransmitInvariant s → step s = .next t → TransmitInvariant t

/-- R41 ("slot `i` holds sequence `expected+i+1`") and R40 ("0 if unseen"): every step of every agent keeps
the windows aligned. -/
def Obligations.EveryStepKeepsWindowsAligned : Prop :=
  ∀ s t : State, ReceiveInvariant s → step s = .next t → ReceiveInvariant t

/-- R38 and R43: OQ with the frame in flight never exceeds OQ_CAP + OQ_HEADROOM, and IQ never exceeds
IQ_CAP; the premise is R173(a), without which TX_STATE and TXH_VALID could disagree. -/
def Obligations.EveryStepKeepsQueuesBounded : Prop :=
  ∀ s t : State, TransmitInvariant s → QueuesBounded s → step s = .next t → QueuesBounded t

/-- The tables keep their canonical form and their keys (R39 to R41, R44). The form is the model's own
(DESIGN CHOICE, log 14). -/
def Obligations.EveryStepKeepsTablesCanonical : Prop :=
  ∀ s t : State, TablesCanonical s → step s = .next t → TablesCanonical t

/-- R29, R300: LAST_EVENT never holds 0 or a value above 10. -/
def Obligations.EveryStepKeepsStatusLegal : Prop :=
  ∀ s t : State, StatusLegal s → step s = .next t → StatusLegal t

/-- R86: every frame queued, in flight or handed to the channel keeps one of the four forms. A beacon's
payload is 8 bytes under every MAX_PAYLOAD (DESIGN CHOICE, log 21). -/
def Obligations.EveryStepKeepsFramesShaped : Prop :=
  ∀ s t : State, TransmitInvariant s → FramesShaped s → step s = .next t → FramesShaped t

/-! ## Whole-machine rules -/

/-- R72: IN_SEEN, IN_EXP, WIN and BC_EXP are RX's alone; a step of any other agent leaves them. -/
def Obligations.OnlyReceiveWritesTracker : Prop :=
  ∀ s t : State, step s = .next t → nextStep s ≠ .rx → t.rx = { s.rx with outSeq := t.rx.outSeq }

/-- R22, R141: OFFSET never decreases, where CHAN_CLOCK + OFFSET is below 2^64 (R140 lets now() wrap). -/
def Obligations.OffsetNeverDecreases : Prop :=
  ∀ s t : State, s.chan.clock.toNat + s.cp.offset.toNat < 2 ^ 64 → step s = .next t →
    s.cp.offset.toNat ≤ t.cp.offset.toNat

/-- R234: a source once seen stays seen. -/
def Obligations.SightedSourceStaysSeen : Prop :=
  ∀ (s t : State) (a : Addr), inSeenAt s a = true → step s = .next t → inSeenAt t a = true

/-- R308, R311, R332: in a legal configuration, with TX_STATE not 7, every step answers a next state, of
the same configuration and with TX_STATE not 7: no run stops. -/
def Obligations.LegalStateAlwaysSteps : Prop :=
  ∀ s : State, s.cfg.ok = true → s.tx.state ≠ .unused →
    ∃ t, step s = .next t ∧ t.cfg = s.cfg ∧ t.tx.state ≠ .unused

/-- R65, R72, R73: CHAN_TXLOG grows at its end only, by one encoded frame, and only by a TX step in
TRANSMIT or SEND_ACK_SIFS. -/
def Obligations.TransmitLogGrowsOnlyByTransmit : Prop :=
  ∀ s t : State, step s = .next t →
    t.chan.txlog = s.chan.txlog
    ∨ nextStep s = .tx
      ∧ (s.tx.state = .transmit ∧ t.chan.txlog = s.chan.txlog ++ [encodeFrame s.tx.txh.frame]
        ∨ s.tx.state = .sendAckSifs ∧ t.chan.txlog = s.chan.txlog ++ [encodeFrame s.tx.ackr])

/-- R196, R187: CW changes only in a TX step in AWAIT_ACK, to 1 or to min(2 * CW, CW_MAX); BACKOFF changes
only by the slot countdown in BACKOFF_SLOT, or by a draw in TRANSMIT or AWAIT_ACK. -/
def Obligations.BackoffAndWindowWriters : Prop :=
  ∀ s t : State, s.cfg.cwMax ≤ 0xFFFF → step s = .next t →
    (t.cp.cw = s.cp.cw
      ∨ nextStep s = .tx ∧ s.tx.state = .awaitAck
        ∧ (t.cp.cw = 1#16 ∨ t.cp.cw.toNat = min (2 * s.cp.cw.toNat) s.cfg.cwMax))
    ∧ (t.cp.backoff = s.cp.backoff
      ∨ nextStep s = .tx
        ∧ (s.tx.state = .backoffSlot ∧ t.cp.backoff = s.cp.backoff - 1
          ∨ (s.tx.state = .transmit ∨ s.tx.state = .awaitAck) ∧ t.cp.backoff.toNat ≤ t.cp.cw.toNat))

/-- R238: what one received DATA frame makes RX deliver are frames of its source with consecutive
sequences modulo 4096 from the expected one on, and IN_EXP ends one past the last. -/
def Obligations.UnicastDeliveryIsConsecutive : Prop :=
  ∀ (retry : Bool) (n : Seq) (src : Addr) (p : Bytes) (s t : State), ReceiveInvariant s →
    s.cfg.myAddr ≠ bcast → exec (.data retry n s.cfg.myAddr src p) s = .next t →
    ∃ ds : List InEntry, t.iq = s.iq ++ ds
      ∧ (∀ i e, ds[i]? = some e → e.src = src ∧ e.seq = inExpAt s src + BitVec.ofNat 12 i)
      ∧ inExpAt t src = inExpAt s src + BitVec.ofNat 12 ds.length

/-- R242: a DATA frame that was just delivered, received again, is not delivered again but ACKed again.
W below 2048 keeps the delivered run within the half-space of R232. -/
def Obligations.DuplicateIsReAckedNotDelivered : Prop :=
  ∀ (retry retry' : Bool) (n : Seq) (src : Addr) (p : Bytes) (s t : State), ReceiveInvariant s →
    s.cfg.myAddr ≠ bcast → s.cfg.winSlots < 2048 → n = inExpAt s src → s.iq.length ≠ s.cfg.iqCap →
    exec (.data retry n s.cfg.myAddr src p) s = .next t → t.iq.length ≠ t.cfg.iqCap →
    ∃ u, exec (.data retry' n s.cfg.myAddr src p) t = .next u
      ∧ u = { t with oq := oqWithAck t src n, rx := u.rx }
      ∧ inExpAt u src = inExpAt t src ∧ windowAt u src = windowAt t src ∧ OtherSourcesKept src t u

/-- R30, R319: DEBUG is read by no rule: two states that differ in DEBUG alone step to states that differ
at most in DEBUG. -/
def Obligations.DebugIsReadByNoRule : Prop :=
  ∀ (s t : State) (v : BitVec 32), step s = .next t →
    ∃ t', step { s with cp := { s.cp with debug := v } } = .next t'
      ∧ t' = { t with cp := { t.cp with debug := t'.cp.debug } }

/-! ## The step runs what was decoded -/

/-- R221: when RX is picked and the oldest byte string of CHAN_RXQ decodes to an instruction, the step is
that instruction's meaning on the state with the pick used up and the byte string taken. That picks come
from a schedule is the model's choice (log 1). -/
def Obligations.StepRunsReceivedFrame : Prop :=
  ∀ (s : State) (b : Bytes) (rest : List Bytes) (i : Instr), s.cfg.ok = true → nextStep s = .rx →
    s.chan.rxq = b :: rest → decodeFrame s.cfg b = .ok i →
    step s = exec i { consumePick s with chan := { s.chan with rxq := rest } }

/-- R270, R271: when a host agent that is ready is picked with a command that decodes to an instruction,
the step is that instruction's meaning on the state with the pick used up; and the completion step of a
blocked agent's RECV is the meaning of that RECV. That picks come from a schedule is the model's choice
(log 1). The completion clause is the model's too: RECV's one meaning is both of its steps (DEDUCED, log 11),
and a completion step with IQ empty, where R277 enables none, changes nothing (DESIGN CHOICE, log 8). -/
def Obligations.StepRunsHostCommand : Prop :=
  ∀ (s : State) (h : Nat), s.cfg.ok = true →
    (∀ (k : HostCommand) (i : Instr), nextStep s = .host h k → hostReady h s = true →
      decodeHost h k = .ok i → step s = exec i (consumePick s))
    ∧ (nextStep s = .complete h → hostExists s.cfg h = true → (hostAt s h).blocked = true →
      step s = exec (.recv h) (consumePick s))

/-! ## The channel port -/

/-- R45, R46, R220, R221: Tick, Busy and Arrive write CHAN_CLOCK, CHAN_BUSY and the back of CHAN_RXQ and
nothing else; no other step writes the first two; RX takes the oldest byte string off CHAN_RXQ, and only RX
and Arrive write it. The model's choices: picks come from a schedule and are used up (log 1); RX picked with
CHAN_RXQ empty, where R220 has no step, changes nothing (log 8); CHAN_IDLE_TIME has a step of its own
(log 7); the clock wraps and a tick may be 0 (log 9). -/
def Obligations.ChannelInputsHaveTheirWriters : Prop :=
  ∀ s : State,
    consumePick s = { s with sched := (consumePick s).sched, schedCount := (consumePick s).schedCount }
    ∧ (s.cfg.ok = true →
        (∀ d, nextStep s = .tick d →
          step s = .next { consumePick s with chan := { s.chan with clock := s.chan.clock + d } })
        ∧ (∀ b, nextStep s = .busy b → step s = .next { consumePick s with chan := { s.chan with busy := b } })
        ∧ (∀ b, nextStep s = .arrive b →
          step s = .next { consumePick s with chan := { s.chan with rxq := s.chan.rxq ++ [b] } })
        ∧ (∀ d, nextStep s = .idleTime d →
          step s = .next { consumePick s with chan := { s.chan with idleTime := d } })
        ∧ (nextStep s = .rx → s.chan.rxq = [] → step s = .next (consumePick s)))
    ∧ ∀ t, step s = .next t →
        (t.chan.clock = s.chan.clock ∨ ∃ d, nextStep s = .tick d)
        ∧ (t.chan.busy = s.chan.busy ∨ ∃ b, nextStep s = .busy b)
        ∧ (t.chan.idleTime = s.chan.idleTime ∨ ∃ d, nextStep s = .idleTime d)
        ∧ (nextStep s = .rx → t.chan.rxq = s.chan.rxq.tail)
        ∧ (nextStep s ≠ .rx → t.chan.rxq = s.chan.rxq ∨ ∃ b, nextStep s = .arrive b)
end

