-- ==== Sys2Proof/Laws/State.lean ====
section
/-! SUPPORT. The state under the named updates: for each update, each field of `State` after it. Every
lemma is true by rfl and tagged simp, so no later proof unfolds a record update. -/

namespace Sys2Proof.Machine

/-! ### setOutSeq -/

@[simp] theorem setOutSeq_cfg (a : Addr) (v : Seq) (s : State) : (setOutSeq a v s).cfg = s.cfg := rfl
@[simp] theorem setOutSeq_cp (a : Addr) (v : Seq) (s : State) : (setOutSeq a v s).cp = s.cp := rfl
@[simp] theorem setOutSeq_tx (a : Addr) (v : Seq) (s : State) : (setOutSeq a v s).tx = s.tx := rfl
@[simp] theorem setOutSeq_oq (a : Addr) (v : Seq) (s : State) : (setOutSeq a v s).oq = s.oq := rfl
@[simp] theorem setOutSeq_rx (a : Addr) (v : Seq) (s : State) :
    (setOutSeq a v s).rx = { s.rx with outSeq := tableSet 0#12 s.rx.outSeq a.toNat v } := rfl
@[simp] theorem setOutSeq_iq (a : Addr) (v : Seq) (s : State) : (setOutSeq a v s).iq = s.iq := rfl
@[simp] theorem setOutSeq_hosts (a : Addr) (v : Seq) (s : State) : (setOutSeq a v s).hosts = s.hosts := rfl
@[simp] theorem setOutSeq_chan (a : Addr) (v : Seq) (s : State) : (setOutSeq a v s).chan = s.chan := rfl
@[simp] theorem setOutSeq_sched (a : Addr) (v : Seq) (s : State) : (setOutSeq a v s).sched = s.sched := rfl
@[simp] theorem setOutSeq_schedCount (a : Addr) (v : Seq) (s : State) :
    (setOutSeq a v s).schedCount = s.schedCount := rfl
@[simp] theorem setOutSeq_drawCount (a : Addr) (v : Seq) (s : State) :
    (setOutSeq a v s).drawCount = s.drawCount := rfl

/-! ### setInSeen -/

@[simp] theorem setInSeen_cfg (a : Addr) (v : Bool) (s : State) : (setInSeen a v s).cfg = s.cfg := rfl
@[simp] theorem setInSeen_cp (a : Addr) (v : Bool) (s : State) : (setInSeen a v s).cp = s.cp := rfl
@[simp] theorem setInSeen_tx (a : Addr) (v : Bool) (s : State) : (setInSeen a v s).tx = s.tx := rfl
@[simp] theorem setInSeen_oq (a : Addr) (v : Bool) (s : State) : (setInSeen a v s).oq = s.oq := rfl
@[simp] theorem setInSeen_rx (a : Addr) (v : Bool) (s : State) :
    (setInSeen a v s).rx = { s.rx with inSeen := tableSet false s.rx.inSeen a.toNat v } := rfl
@[simp] theorem setInSeen_iq (a : Addr) (v : Bool) (s : State) : (setInSeen a v s).iq = s.iq := rfl
@[simp] theorem setInSeen_hosts (a : Addr) (v : Bool) (s : State) : (setInSeen a v s).hosts = s.hosts := rfl
@[simp] theorem setInSeen_chan (a : Addr) (v : Bool) (s : State) : (setInSeen a v s).chan = s.chan := rfl
@[simp] theorem setInSeen_sched (a : Addr) (v : Bool) (s : State) : (setInSeen a v s).sched = s.sched := rfl
@[simp] theorem setInSeen_schedCount (a : Addr) (v : Bool) (s : State) :
    (setInSeen a v s).schedCount = s.schedCount := rfl
@[simp] theorem setInSeen_drawCount (a : Addr) (v : Bool) (s : State) :
    (setInSeen a v s).drawCount = s.drawCount := rfl

/-! ### setInExp -/

@[simp] theorem setInExp_cfg (a : Addr) (v : Seq) (s : State) : (setInExp a v s).cfg = s.cfg := rfl
@[simp] theorem setInExp_cp (a : Addr) (v : Seq) (s : State) : (setInExp a v s).cp = s.cp := rfl
@[simp] theorem setInExp_tx (a : Addr) (v : Seq) (s : State) : (setInExp a v s).tx = s.tx := rfl
@[simp] theorem setInExp_oq (a : Addr) (v : Seq) (s : State) : (setInExp a v s).oq = s.oq := rfl
@[simp] theorem setInExp_rx (a : Addr) (v : Seq) (s : State) :
    (setInExp a v s).rx = { s.rx with inExp := tableSet 0#12 s.rx.inExp a.toNat v } := rfl
@[simp] theorem setInExp_iq (a : Addr) (v : Seq) (s : State) : (setInExp a v s).iq = s.iq := rfl
@[simp] theorem setInExp_hosts (a : Addr) (v : Seq) (s : State) : (setInExp a v s).hosts = s.hosts := rfl
@[simp] theorem setInExp_chan (a : Addr) (v : Seq) (s : State) : (setInExp a v s).chan = s.chan := rfl
@[simp] theorem setInExp_sched (a : Addr) (v : Seq) (s : State) : (setInExp a v s).sched = s.sched := rfl
@[simp] theorem setInExp_schedCount (a : Addr) (v : Seq) (s : State) :
    (setInExp a v s).schedCount = s.schedCount := rfl
@[simp] theorem setInExp_drawCount (a : Addr) (v : Seq) (s : State) :
    (setInExp a v s).drawCount = s.drawCount := rfl

/-! ### setWindow -/

@[simp] theorem setWindow_cfg (a : Addr) (w : Window) (s : State) : (setWindow a w s).cfg = s.cfg := rfl
@[simp] theorem setWindow_cp (a : Addr) (w : Window) (s : State) : (setWindow a w s).cp = s.cp := rfl
@[simp] theorem setWindow_tx (a : Addr) (w : Window) (s : State) : (setWindow a w s).tx = s.tx := rfl
@[simp] theorem setWindow_oq (a : Addr) (w : Window) (s : State) : (setWindow a w s).oq = s.oq := rfl
@[simp] theorem setWindow_rx (a : Addr) (w : Window) (s : State) :
    (setWindow a w s).rx = { s.rx with win := tableSet (emptyWindow s.cfg) s.rx.win a.toNat w } := rfl
@[simp] theorem setWindow_iq (a : Addr) (w : Window) (s : State) : (setWindow a w s).iq = s.iq := rfl
@[simp] theorem setWindow_hosts (a : Addr) (w : Window) (s : State) : (setWindow a w s).hosts = s.hosts := rfl
@[simp] theorem setWindow_chan (a : Addr) (w : Window) (s : State) : (setWindow a w s).chan = s.chan := rfl
@[simp] theorem setWindow_sched (a : Addr) (w : Window) (s : State) : (setWindow a w s).sched = s.sched := rfl
@[simp] theorem setWindow_schedCount (a : Addr) (w : Window) (s : State) :
    (setWindow a w s).schedCount = s.schedCount := rfl
@[simp] theorem setWindow_drawCount (a : Addr) (w : Window) (s : State) :
    (setWindow a w s).drawCount = s.drawCount := rfl

/-! ### setBcExp -/

@[simp] theorem setBcExp_cfg (v : Seq) (s : State) : (setBcExp v s).cfg = s.cfg := rfl
@[simp] theorem setBcExp_cp (v : Seq) (s : State) : (setBcExp v s).cp = s.cp := rfl
@[simp] theorem setBcExp_tx (v : Seq) (s : State) : (setBcExp v s).tx = s.tx := rfl
@[simp] theorem setBcExp_oq (v : Seq) (s : State) : (setBcExp v s).oq = s.oq := rfl
@[simp] theorem setBcExp_rx (v : Seq) (s : State) : (setBcExp v s).rx = { s.rx with bcExp := v } := rfl
@[simp] theorem setBcExp_iq (v : Seq) (s : State) : (setBcExp v s).iq = s.iq := rfl
@[simp] theorem setBcExp_hosts (v : Seq) (s : State) : (setBcExp v s).hosts = s.hosts := rfl
@[simp] theorem setBcExp_chan (v : Seq) (s : State) : (setBcExp v s).chan = s.chan := rfl
@[simp] theorem setBcExp_sched (v : Seq) (s : State) : (setBcExp v s).sched = s.sched := rfl
@[simp] theorem setBcExp_schedCount (v : Seq) (s : State) : (setBcExp v s).schedCount = s.schedCount := rfl
@[simp] theorem setBcExp_drawCount (v : Seq) (s : State) : (setBcExp v s).drawCount = s.drawCount := rfl

/-! ### setHost -/

@[simp] theorem setHost_cfg (h : Nat) (r : HostRegs) (s : State) : (setHost h r s).cfg = s.cfg := rfl
@[simp] theorem setHost_cp (h : Nat) (r : HostRegs) (s : State) : (setHost h r s).cp = s.cp := rfl
@[simp] theorem setHost_tx (h : Nat) (r : HostRegs) (s : State) : (setHost h r s).tx = s.tx := rfl
@[simp] theorem setHost_oq (h : Nat) (r : HostRegs) (s : State) : (setHost h r s).oq = s.oq := rfl
@[simp] theorem setHost_rx (h : Nat) (r : HostRegs) (s : State) : (setHost h r s).rx = s.rx := rfl
@[simp] theorem setHost_iq (h : Nat) (r : HostRegs) (s : State) : (setHost h r s).iq = s.iq := rfl
@[simp] theorem setHost_hosts (h : Nat) (r : HostRegs) (s : State) :
    (setHost h r s).hosts = tableSet HostRegs.reset s.hosts h r := rfl
@[simp] theorem setHost_chan (h : Nat) (r : HostRegs) (s : State) : (setHost h r s).chan = s.chan := rfl
@[simp] theorem setHost_sched (h : Nat) (r : HostRegs) (s : State) : (setHost h r s).sched = s.sched := rfl
@[simp] theorem setHost_schedCount (h : Nat) (r : HostRegs) (s : State) :
    (setHost h r s).schedCount = s.schedCount := rfl
@[simp] theorem setHost_drawCount (h : Nat) (r : HostRegs) (s : State) :
    (setHost h r s).drawCount = s.drawCount := rfl

/-! ### record -/

@[simp] theorem record_cfg (c : Status) (s : State) : (record c s).cfg = s.cfg := rfl
@[simp] theorem record_cp (c : Status) (s : State) :
    (record c s).cp = { s.cp with lastEvent := statusCode c } := rfl
@[simp] theorem record_tx (c : Status) (s : State) : (record c s).tx = s.tx := rfl
@[simp] theorem record_oq (c : Status) (s : State) : (record c s).oq = s.oq := rfl
@[simp] theorem record_rx (c : Status) (s : State) : (record c s).rx = s.rx := rfl
@[simp] theorem record_iq (c : Status) (s : State) : (record c s).iq = s.iq := rfl
@[simp] theorem record_hosts (c : Status) (s : State) : (record c s).hosts = s.hosts := rfl
@[simp] theorem record_chan (c : Status) (s : State) : (record c s).chan = s.chan := rfl
@[simp] theorem record_sched (c : Status) (s : State) : (record c s).sched = s.sched := rfl
@[simp] theorem record_schedCount (c : Status) (s : State) : (record c s).schedCount = s.schedCount := rfl
@[simp] theorem record_drawCount (c : Status) (s : State) : (record c s).drawCount = s.drawCount := rfl

/-! ### pushFrontOq -/

@[simp] theorem pushFrontOq_cfg (e : OutEntry) (s : State) : (pushFrontOq e s).cfg = s.cfg := rfl
@[simp] theorem pushFrontOq_cp (e : OutEntry) (s : State) : (pushFrontOq e s).cp = s.cp := rfl
@[simp] theorem pushFrontOq_tx (e : OutEntry) (s : State) : (pushFrontOq e s).tx = s.tx := rfl
@[simp] theorem pushFrontOq_oq (e : OutEntry) (s : State) : (pushFrontOq e s).oq = e :: s.oq := rfl
@[simp] theorem pushFrontOq_rx (e : OutEntry) (s : State) : (pushFrontOq e s).rx = s.rx := rfl
@[simp] theorem pushFrontOq_iq (e : OutEntry) (s : State) : (pushFrontOq e s).iq = s.iq := rfl
@[simp] theorem pushFrontOq_hosts (e : OutEntry) (s : State) : (pushFrontOq e s).hosts = s.hosts := rfl
@[simp] theorem pushFrontOq_chan (e : OutEntry) (s : State) : (pushFrontOq e s).chan = s.chan := rfl
@[simp] theorem pushFrontOq_sched (e : OutEntry) (s : State) : (pushFrontOq e s).sched = s.sched := rfl
@[simp] theorem pushFrontOq_schedCount (e : OutEntry) (s : State) :
    (pushFrontOq e s).schedCount = s.schedCount := rfl
@[simp] theorem pushFrontOq_drawCount (e : OutEntry) (s : State) :
    (pushFrontOq e s).drawCount = s.drawCount := rfl

/-! ### pushBackOq -/

@[simp] theorem pushBackOq_cfg (e : OutEntry) (s : State) : (pushBackOq e s).cfg = s.cfg := rfl
@[simp] theorem pushBackOq_cp (e : OutEntry) (s : State) : (pushBackOq e s).cp = s.cp := rfl
@[simp] theorem pushBackOq_tx (e : OutEntry) (s : State) : (pushBackOq e s).tx = s.tx := rfl
@[simp] theorem pushBackOq_oq (e : OutEntry) (s : State) : (pushBackOq e s).oq = s.oq ++ [e] := rfl
@[simp] theorem pushBackOq_rx (e : OutEntry) (s : State) : (pushBackOq e s).rx = s.rx := rfl
@[simp] theorem pushBackOq_iq (e : OutEntry) (s : State) : (pushBackOq e s).iq = s.iq := rfl
@[simp] theorem pushBackOq_hosts (e : OutEntry) (s : State) : (pushBackOq e s).hosts = s.hosts := rfl
@[simp] theorem pushBackOq_chan (e : OutEntry) (s : State) : (pushBackOq e s).chan = s.chan := rfl
@[simp] theorem pushBackOq_sched (e : OutEntry) (s : State) : (pushBackOq e s).sched = s.sched := rfl
@[simp] theorem pushBackOq_schedCount (e : OutEntry) (s : State) :
    (pushBackOq e s).schedCount = s.schedCount := rfl
@[simp] theorem pushBackOq_drawCount (e : OutEntry) (s : State) :
    (pushBackOq e s).drawCount = s.drawCount := rfl

/-! ### deliver -/

@[simp] theorem deliver_cfg (e : InEntry) (s : State) : (deliver e s).cfg = s.cfg := rfl
@[simp] theorem deliver_cp (e : InEntry) (s : State) : (deliver e s).cp = s.cp := rfl
@[simp] theorem deliver_tx (e : InEntry) (s : State) : (deliver e s).tx = s.tx := rfl
@[simp] theorem deliver_oq (e : InEntry) (s : State) : (deliver e s).oq = s.oq := rfl
@[simp] theorem deliver_rx (e : InEntry) (s : State) : (deliver e s).rx = s.rx := rfl
@[simp] theorem deliver_iq (e : InEntry) (s : State) : (deliver e s).iq = s.iq ++ [e] := rfl
@[simp] theorem deliver_hosts (e : InEntry) (s : State) : (deliver e s).hosts = s.hosts := rfl
@[simp] theorem deliver_chan (e : InEntry) (s : State) : (deliver e s).chan = s.chan := rfl
@[simp] theorem deliver_sched (e : InEntry) (s : State) : (deliver e s).sched = s.sched := rfl
@[simp] theorem deliver_schedCount (e : InEntry) (s : State) : (deliver e s).schedCount = s.schedCount := rfl
@[simp] theorem deliver_drawCount (e : InEntry) (s : State) : (deliver e s).drawCount = s.drawCount := rfl

/-! ### chanTransmit -/

@[simp] theorem chanTransmit_cfg (b : Bytes) (s : State) : (chanTransmit b s).cfg = s.cfg := rfl
@[simp] theorem chanTransmit_cp (b : Bytes) (s : State) : (chanTransmit b s).cp = s.cp := rfl
@[simp] theorem chanTransmit_tx (b : Bytes) (s : State) : (chanTransmit b s).tx = s.tx := rfl
@[simp] theorem chanTransmit_oq (b : Bytes) (s : State) : (chanTransmit b s).oq = s.oq := rfl
@[simp] theorem chanTransmit_rx (b : Bytes) (s : State) : (chanTransmit b s).rx = s.rx := rfl
@[simp] theorem chanTransmit_iq (b : Bytes) (s : State) : (chanTransmit b s).iq = s.iq := rfl
@[simp] theorem chanTransmit_hosts (b : Bytes) (s : State) : (chanTransmit b s).hosts = s.hosts := rfl
@[simp] theorem chanTransmit_chan (b : Bytes) (s : State) :
    (chanTransmit b s).chan = { s.chan with txlog := s.chan.txlog ++ [b] } := rfl
@[simp] theorem chanTransmit_sched (b : Bytes) (s : State) : (chanTransmit b s).sched = s.sched := rfl
@[simp] theorem chanTransmit_schedCount (b : Bytes) (s : State) :
    (chanTransmit b s).schedCount = s.schedCount := rfl
@[simp] theorem chanTransmit_drawCount (b : Bytes) (s : State) :
    (chanTransmit b s).drawCount = s.drawCount := rfl

/-! ### startAckTimer -/

@[simp] theorem startAckTimer_cfg (s : State) : (startAckTimer s).cfg = s.cfg := rfl
@[simp] theorem startAckTimer_cp (s : State) :
    (startAckTimer s).cp = { s.cp with ackWaitStart := now s } := rfl
@[simp] theorem startAckTimer_tx (s : State) : (startAckTimer s).tx = s.tx := rfl
@[simp] theorem startAckTimer_oq (s : State) : (startAckTimer s).oq = s.oq := rfl
@[simp] theorem startAckTimer_rx (s : State) : (startAckTimer s).rx = s.rx := rfl
@[simp] theorem startAckTimer_iq (s : State) : (startAckTimer s).iq = s.iq := rfl
@[simp] theorem startAckTimer_hosts (s : State) : (startAckTimer s).hosts = s.hosts := rfl
@[simp] theorem startAckTimer_chan (s : State) : (startAckTimer s).chan = s.chan := rfl
@[simp] theorem startAckTimer_sched (s : State) : (startAckTimer s).sched = s.sched := rfl
@[simp] theorem startAckTimer_schedCount (s : State) : (startAckTimer s).schedCount = s.schedCount := rfl
@[simp] theorem startAckTimer_drawCount (s : State) : (startAckTimer s).drawCount = s.drawCount := rfl

/-! ### removeBeacons -/

@[simp] theorem removeBeacons_cfg (s : State) : (removeBeacons s).cfg = s.cfg := rfl
@[simp] theorem removeBeacons_cp (s : State) : (removeBeacons s).cp = s.cp := rfl
@[simp] theorem removeBeacons_tx (s : State) : (removeBeacons s).tx = s.tx := rfl
@[simp] theorem removeBeacons_oq (s : State) :
    (removeBeacons s).oq = s.oq.filter fun e => e.frame.kind != .beacon := rfl
@[simp] theorem removeBeacons_rx (s : State) : (removeBeacons s).rx = s.rx := rfl
@[simp] theorem removeBeacons_iq (s : State) : (removeBeacons s).iq = s.iq := rfl
@[simp] theorem removeBeacons_hosts (s : State) : (removeBeacons s).hosts = s.hosts := rfl
@[simp] theorem removeBeacons_chan (s : State) : (removeBeacons s).chan = s.chan := rfl
@[simp] theorem removeBeacons_sched (s : State) : (removeBeacons s).sched = s.sched := rfl
@[simp] theorem removeBeacons_schedCount (s : State) : (removeBeacons s).schedCount = s.schedCount := rfl
@[simp] theorem removeBeacons_drawCount (s : State) : (removeBeacons s).drawCount = s.drawCount := rfl

/-! ### enterAckPath -/

@[simp] theorem enterAckPath_cfg (r : Bool) (e : OutEntry) (q : List OutEntry) (s : State) :
    (enterAckPath r e q s).cfg = s.cfg := rfl
@[simp] theorem enterAckPath_cp (r : Bool) (e : OutEntry) (q : List OutEntry) (s : State) :
    (enterAckPath r e q s).cp = s.cp := rfl
@[simp] theorem enterAckPath_tx (r : Bool) (e : OutEntry) (q : List OutEntry) (s : State) :
    (enterAckPath r e q s).tx = { s.tx with ackr := e.frame, ackrValid := true, ackPhase := false, ackReturn := r, state := .sendAckSifs } := rfl
@[simp] theorem enterAckPath_oq (r : Bool) (e : OutEntry) (q : List OutEntry) (s : State) :
    (enterAckPath r e q s).oq = q := rfl
@[simp] theorem enterAckPath_rx (r : Bool) (e : OutEntry) (q : List OutEntry) (s : State) :
    (enterAckPath r e q s).rx = s.rx := rfl
@[simp] theorem enterAckPath_iq (r : Bool) (e : OutEntry) (q : List OutEntry) (s : State) :
    (enterAckPath r e q s).iq = s.iq := rfl
@[simp] theorem enterAckPath_hosts (r : Bool) (e : OutEntry) (q : List OutEntry) (s : State) :
    (enterAckPath r e q s).hosts = s.hosts := rfl
@[simp] theorem enterAckPath_chan (r : Bool) (e : OutEntry) (q : List OutEntry) (s : State) :
    (enterAckPath r e q s).chan = s.chan := rfl
@[simp] theorem enterAckPath_sched (r : Bool) (e : OutEntry) (q : List OutEntry) (s : State) :
    (enterAckPath r e q s).sched = s.sched := rfl
@[simp] theorem enterAckPath_schedCount (r : Bool) (e : OutEntry) (q : List OutEntry) (s : State) :
    (enterAckPath r e q s).schedCount = s.schedCount := rfl
@[simp] theorem enterAckPath_drawCount (r : Bool) (e : OutEntry) (q : List OutEntry) (s : State) :
    (enterAckPath r e q s).drawCount = s.drawCount := rfl

/-! ### enterDifsWait -/

@[simp] theorem enterDifsWait_cfg (s : State) : (enterDifsWait s).cfg = s.cfg := rfl
@[simp] theorem enterDifsWait_cp (s : State) : (enterDifsWait s).cp = s.cp := rfl
@[simp] theorem enterDifsWait_tx (s : State) :
    (enterDifsWait s).tx = { s.tx with deadline := now s + roundedBackoffBase s, state := .difsWait } := rfl
@[simp] theorem enterDifsWait_oq (s : State) : (enterDifsWait s).oq = s.oq := rfl
@[simp] theorem enterDifsWait_rx (s : State) : (enterDifsWait s).rx = s.rx := rfl
@[simp] theorem enterDifsWait_iq (s : State) : (enterDifsWait s).iq = s.iq := rfl
@[simp] theorem enterDifsWait_hosts (s : State) : (enterDifsWait s).hosts = s.hosts := rfl
@[simp] theorem enterDifsWait_chan (s : State) : (enterDifsWait s).chan = s.chan := rfl
@[simp] theorem enterDifsWait_sched (s : State) : (enterDifsWait s).sched = s.sched := rfl
@[simp] theorem enterDifsWait_schedCount (s : State) : (enterDifsWait s).schedCount = s.schedCount := rfl
@[simp] theorem enterDifsWait_drawCount (s : State) : (enterDifsWait s).drawCount = s.drawCount := rfl

/-! ### waitForIdle -/

@[simp] theorem waitForIdle_cfg (s : State) : (waitForIdle s).cfg = s.cfg := rfl
@[simp] theorem waitForIdle_cp (s : State) : (waitForIdle s).cp = s.cp := rfl
@[simp] theorem waitForIdle_tx (s : State) :
    (waitForIdle s).tx = { s.tx with needBackoff := true, state := .waitChannelIdle } := rfl
@[simp] theorem waitForIdle_oq (s : State) : (waitForIdle s).oq = s.oq := rfl
@[simp] theorem waitForIdle_rx (s : State) : (waitForIdle s).rx = s.rx := rfl
@[simp] theorem waitForIdle_iq (s : State) : (waitForIdle s).iq = s.iq := rfl
@[simp] theorem waitForIdle_hosts (s : State) : (waitForIdle s).hosts = s.hosts := rfl
@[simp] theorem waitForIdle_chan (s : State) : (waitForIdle s).chan = s.chan := rfl
@[simp] theorem waitForIdle_sched (s : State) : (waitForIdle s).sched = s.sched := rfl
@[simp] theorem waitForIdle_schedCount (s : State) : (waitForIdle s).schedCount = s.schedCount := rfl
@[simp] theorem waitForIdle_drawCount (s : State) : (waitForIdle s).drawCount = s.drawCount := rfl

/-! ### loadHead -/

@[simp] theorem loadHead_cfg (e : OutEntry) (q : List OutEntry) (s : State) :
    (loadHead e q s).cfg = s.cfg := rfl
@[simp] theorem loadHead_cp (e : OutEntry) (q : List OutEntry) (s : State) : (loadHead e q s).cp = s.cp := rfl
@[simp] theorem loadHead_tx (e : OutEntry) (q : List OutEntry) (s : State) :
    (loadHead e q s).tx = { s.tx with txh := { e with acked := false }, txhValid := true, needBackoff := false } := rfl
@[simp] theorem loadHead_oq (e : OutEntry) (q : List OutEntry) (s : State) : (loadHead e q s).oq = q := rfl
@[simp] theorem loadHead_rx (e : OutEntry) (q : List OutEntry) (s : State) : (loadHead e q s).rx = s.rx := rfl
@[simp] theorem loadHead_iq (e : OutEntry) (q : List OutEntry) (s : State) : (loadHead e q s).iq = s.iq := rfl
@[simp] theorem loadHead_hosts (e : OutEntry) (q : List OutEntry) (s : State) :
    (loadHead e q s).hosts = s.hosts := rfl
@[simp] theorem loadHead_chan (e : OutEntry) (q : List OutEntry) (s : State) :
    (loadHead e q s).chan = s.chan := rfl
@[simp] theorem loadHead_sched (e : OutEntry) (q : List OutEntry) (s : State) :
    (loadHead e q s).sched = s.sched := rfl
@[simp] theorem loadHead_schedCount (e : OutEntry) (q : List OutEntry) (s : State) :
    (loadHead e q s).schedCount = s.schedCount := rfl
@[simp] theorem loadHead_drawCount (e : OutEntry) (q : List OutEntry) (s : State) :
    (loadHead e q s).drawCount = s.drawCount := rfl

/-! ### toTransmit -/

@[simp] theorem toTransmit_cfg (s : State) : (toTransmit s).cfg = s.cfg := rfl
@[simp] theorem toTransmit_cp (s : State) : (toTransmit s).cp = s.cp := rfl
@[simp] theorem toTransmit_tx (s : State) : (toTransmit s).tx = { s.tx with state := .transmit } := rfl
@[simp] theorem toTransmit_oq (s : State) : (toTransmit s).oq = s.oq := rfl
@[simp] theorem toTransmit_rx (s : State) : (toTransmit s).rx = s.rx := rfl
@[simp] theorem toTransmit_iq (s : State) : (toTransmit s).iq = s.iq := rfl
@[simp] theorem toTransmit_hosts (s : State) : (toTransmit s).hosts = s.hosts := rfl
@[simp] theorem toTransmit_chan (s : State) : (toTransmit s).chan = s.chan := rfl
@[simp] theorem toTransmit_sched (s : State) : (toTransmit s).sched = s.sched := rfl
@[simp] theorem toTransmit_schedCount (s : State) : (toTransmit s).schedCount = s.schedCount := rfl
@[simp] theorem toTransmit_drawCount (s : State) : (toTransmit s).drawCount = s.drawCount := rfl

/-! ### startSlot -/

@[simp] theorem startSlot_cfg (s : State) : (startSlot s).cfg = s.cfg := rfl
@[simp] theorem startSlot_cp (s : State) : (startSlot s).cp = s.cp := rfl
@[simp] theorem startSlot_tx (s : State) :
    (startSlot s).tx = { s.tx with deadline := now s + s.cfg.slotTime, state := .backoffSlot } := rfl
@[simp] theorem startSlot_oq (s : State) : (startSlot s).oq = s.oq := rfl
@[simp] theorem startSlot_rx (s : State) : (startSlot s).rx = s.rx := rfl
@[simp] theorem startSlot_iq (s : State) : (startSlot s).iq = s.iq := rfl
@[simp] theorem startSlot_hosts (s : State) : (startSlot s).hosts = s.hosts := rfl
@[simp] theorem startSlot_chan (s : State) : (startSlot s).chan = s.chan := rfl
@[simp] theorem startSlot_sched (s : State) : (startSlot s).sched = s.sched := rfl
@[simp] theorem startSlot_schedCount (s : State) : (startSlot s).schedCount = s.schedCount := rfl
@[simp] theorem startSlot_drawCount (s : State) : (startSlot s).drawCount = s.drawCount := rfl

/-! ### countSlot -/

@[simp] theorem countSlot_cfg (s : State) : (countSlot s).cfg = s.cfg := rfl
@[simp] theorem countSlot_cp (s : State) : (countSlot s).cp = { s.cp with backoff := s.cp.backoff - 1 } := rfl
@[simp] theorem countSlot_tx (s : State) : (countSlot s).tx = s.tx := rfl
@[simp] theorem countSlot_oq (s : State) : (countSlot s).oq = s.oq := rfl
@[simp] theorem countSlot_rx (s : State) : (countSlot s).rx = s.rx := rfl
@[simp] theorem countSlot_iq (s : State) : (countSlot s).iq = s.iq := rfl
@[simp] theorem countSlot_hosts (s : State) : (countSlot s).hosts = s.hosts := rfl
@[simp] theorem countSlot_chan (s : State) : (countSlot s).chan = s.chan := rfl
@[simp] theorem countSlot_sched (s : State) : (countSlot s).sched = s.sched := rfl
@[simp] theorem countSlot_schedCount (s : State) : (countSlot s).schedCount = s.schedCount := rfl
@[simp] theorem countSlot_drawCount (s : State) : (countSlot s).drawCount = s.drawCount := rfl

/-! ### resolveHead -/

@[simp] theorem resolveHead_cfg (s : State) : (resolveHead s).cfg = s.cfg := rfl
@[simp] theorem resolveHead_cp (s : State) : (resolveHead s).cp = s.cp := rfl
@[simp] theorem resolveHead_tx (s : State) :
    (resolveHead s).tx = { s.tx with txhValid := false, state := .idle } := rfl
@[simp] theorem resolveHead_oq (s : State) : (resolveHead s).oq = s.oq := rfl
@[simp] theorem resolveHead_rx (s : State) : (resolveHead s).rx = s.rx := rfl
@[simp] theorem resolveHead_iq (s : State) : (resolveHead s).iq = s.iq := rfl
@[simp] theorem resolveHead_hosts (s : State) : (resolveHead s).hosts = s.hosts := rfl
@[simp] theorem resolveHead_chan (s : State) : (resolveHead s).chan = s.chan := rfl
@[simp] theorem resolveHead_sched (s : State) : (resolveHead s).sched = s.sched := rfl
@[simp] theorem resolveHead_schedCount (s : State) : (resolveHead s).schedCount = s.schedCount := rfl
@[simp] theorem resolveHead_drawCount (s : State) : (resolveHead s).drawCount = s.drawCount := rfl

/-! ### beginAckWait -/

@[simp] theorem beginAckWait_cfg (s : State) : (beginAckWait s).cfg = s.cfg := rfl
@[simp] theorem beginAckWait_cp (s : State) : (beginAckWait s).cp = { s.cp with ackWaitStart := now s } := rfl
@[simp] theorem beginAckWait_tx (s : State) : (beginAckWait s).tx = { s.tx with state := .awaitAck } := rfl
@[simp] theorem beginAckWait_oq (s : State) : (beginAckWait s).oq = s.oq := rfl
@[simp] theorem beginAckWait_rx (s : State) : (beginAckWait s).rx = s.rx := rfl
@[simp] theorem beginAckWait_iq (s : State) : (beginAckWait s).iq = s.iq := rfl
@[simp] theorem beginAckWait_hosts (s : State) : (beginAckWait s).hosts = s.hosts := rfl
@[simp] theorem beginAckWait_chan (s : State) : (beginAckWait s).chan = s.chan := rfl
@[simp] theorem beginAckWait_sched (s : State) : (beginAckWait s).sched = s.sched := rfl
@[simp] theorem beginAckWait_schedCount (s : State) : (beginAckWait s).schedCount = s.schedCount := rfl
@[simp] theorem beginAckWait_drawCount (s : State) : (beginAckWait s).drawCount = s.drawCount := rfl

/-! ### resetWindow -/

@[simp] theorem resetWindow_cfg (s : State) : (resetWindow s).cfg = s.cfg := rfl
@[simp] theorem resetWindow_cp (s : State) : (resetWindow s).cp = { s.cp with cw := cwReset } := rfl
@[simp] theorem resetWindow_tx (s : State) : (resetWindow s).tx = s.tx := rfl
@[simp] theorem resetWindow_oq (s : State) : (resetWindow s).oq = s.oq := rfl
@[simp] theorem resetWindow_rx (s : State) : (resetWindow s).rx = s.rx := rfl
@[simp] theorem resetWindow_iq (s : State) : (resetWindow s).iq = s.iq := rfl
@[simp] theorem resetWindow_hosts (s : State) : (resetWindow s).hosts = s.hosts := rfl
@[simp] theorem resetWindow_chan (s : State) : (resetWindow s).chan = s.chan := rfl
@[simp] theorem resetWindow_sched (s : State) : (resetWindow s).sched = s.sched := rfl
@[simp] theorem resetWindow_schedCount (s : State) : (resetWindow s).schedCount = s.schedCount := rfl
@[simp] theorem resetWindow_drawCount (s : State) : (resetWindow s).drawCount = s.drawCount := rfl

/-! ### doubleWindow -/

@[simp] theorem doubleWindow_cfg (s : State) : (doubleWindow s).cfg = s.cfg := rfl
@[simp] theorem doubleWindow_cp (s : State) :
    (doubleWindow s).cp = { s.cp with cw := doubledWindow s.cfg s.cp.cw } := rfl
@[simp] theorem doubleWindow_tx (s : State) : (doubleWindow s).tx = s.tx := rfl
@[simp] theorem doubleWindow_oq (s : State) : (doubleWindow s).oq = s.oq := rfl
@[simp] theorem doubleWindow_rx (s : State) : (doubleWindow s).rx = s.rx := rfl
@[simp] theorem doubleWindow_iq (s : State) : (doubleWindow s).iq = s.iq := rfl
@[simp] theorem doubleWindow_hosts (s : State) : (doubleWindow s).hosts = s.hosts := rfl
@[simp] theorem doubleWindow_chan (s : State) : (doubleWindow s).chan = s.chan := rfl
@[simp] theorem doubleWindow_sched (s : State) : (doubleWindow s).sched = s.sched := rfl
@[simp] theorem doubleWindow_schedCount (s : State) : (doubleWindow s).schedCount = s.schedCount := rfl
@[simp] theorem doubleWindow_drawCount (s : State) : (doubleWindow s).drawCount = s.drawCount := rfl

/-! ### purgePeer -/

@[simp] theorem purgePeer_cfg (p : Addr) (s : State) : (purgePeer p s).cfg = s.cfg := rfl
@[simp] theorem purgePeer_cp (p : Addr) (s : State) : (purgePeer p s).cp = s.cp := rfl
@[simp] theorem purgePeer_tx (p : Addr) (s : State) : (purgePeer p s).tx = s.tx := rfl
@[simp] theorem purgePeer_oq (p : Addr) (s : State) :
    (purgePeer p s).oq = s.oq.filter fun e => e.frame.dest != p := rfl
@[simp] theorem purgePeer_rx (p : Addr) (s : State) : (purgePeer p s).rx = s.rx := rfl
@[simp] theorem purgePeer_iq (p : Addr) (s : State) : (purgePeer p s).iq = s.iq := rfl
@[simp] theorem purgePeer_hosts (p : Addr) (s : State) : (purgePeer p s).hosts = s.hosts := rfl
@[simp] theorem purgePeer_chan (p : Addr) (s : State) : (purgePeer p s).chan = s.chan := rfl
@[simp] theorem purgePeer_sched (p : Addr) (s : State) : (purgePeer p s).sched = s.sched := rfl
@[simp] theorem purgePeer_schedCount (p : Addr) (s : State) : (purgePeer p s).schedCount = s.schedCount := rfl
@[simp] theorem purgePeer_drawCount (p : Addr) (s : State) : (purgePeer p s).drawCount = s.drawCount := rfl

/-! ### markRetry -/

@[simp] theorem markRetry_cfg (s : State) : (markRetry s).cfg = s.cfg := rfl
@[simp] theorem markRetry_cp (s : State) : (markRetry s).cp = s.cp := rfl
@[simp] theorem markRetry_tx (s : State) :
    (markRetry s).tx = { s.tx with txh := { s.tx.txh with retries := s.tx.txh.retries + 1, frame := { s.tx.txh.frame with retry := true } } } := rfl
@[simp] theorem markRetry_oq (s : State) : (markRetry s).oq = s.oq := rfl
@[simp] theorem markRetry_rx (s : State) : (markRetry s).rx = s.rx := rfl
@[simp] theorem markRetry_iq (s : State) : (markRetry s).iq = s.iq := rfl
@[simp] theorem markRetry_hosts (s : State) : (markRetry s).hosts = s.hosts := rfl
@[simp] theorem markRetry_chan (s : State) : (markRetry s).chan = s.chan := rfl
@[simp] theorem markRetry_sched (s : State) : (markRetry s).sched = s.sched := rfl
@[simp] theorem markRetry_schedCount (s : State) : (markRetry s).schedCount = s.schedCount := rfl
@[simp] theorem markRetry_drawCount (s : State) : (markRetry s).drawCount = s.drawCount := rfl

/-! ### startSifs -/

@[simp] theorem startSifs_cfg (s : State) : (startSifs s).cfg = s.cfg := rfl
@[simp] theorem startSifs_cp (s : State) : (startSifs s).cp = s.cp := rfl
@[simp] theorem startSifs_tx (s : State) :
    (startSifs s).tx = { s.tx with deadline := now s + s.cfg.sifsTime, ackPhase := true } := rfl
@[simp] theorem startSifs_oq (s : State) : (startSifs s).oq = s.oq := rfl
@[simp] theorem startSifs_rx (s : State) : (startSifs s).rx = s.rx := rfl
@[simp] theorem startSifs_iq (s : State) : (startSifs s).iq = s.iq := rfl
@[simp] theorem startSifs_hosts (s : State) : (startSifs s).hosts = s.hosts := rfl
@[simp] theorem startSifs_chan (s : State) : (startSifs s).chan = s.chan := rfl
@[simp] theorem startSifs_sched (s : State) : (startSifs s).sched = s.sched := rfl
@[simp] theorem startSifs_schedCount (s : State) : (startSifs s).schedCount = s.schedCount := rfl
@[simp] theorem startSifs_drawCount (s : State) : (startSifs s).drawCount = s.drawCount := rfl

/-! ### sendAck -/

@[simp] theorem sendAck_cfg (s : State) : (sendAck s).cfg = s.cfg := rfl
@[simp] theorem sendAck_cp (s : State) : (sendAck s).cp = s.cp := rfl
@[simp] theorem sendAck_tx (s : State) :
    (sendAck s).tx = { s.tx with ackrValid := false, ackPhase := false, ackReturn := false, state := if s.tx.ackReturn then .awaitAck else .idle } := rfl
@[simp] theorem sendAck_oq (s : State) : (sendAck s).oq = s.oq := rfl
@[simp] theorem sendAck_rx (s : State) : (sendAck s).rx = s.rx := rfl
@[simp] theorem sendAck_iq (s : State) : (sendAck s).iq = s.iq := rfl
@[simp] theorem sendAck_hosts (s : State) : (sendAck s).hosts = s.hosts := rfl
@[simp] theorem sendAck_chan (s : State) :
    (sendAck s).chan = { s.chan with txlog := s.chan.txlog ++ [encodeFrame s.tx.ackr] } := rfl
@[simp] theorem sendAck_sched (s : State) : (sendAck s).sched = s.sched := rfl
@[simp] theorem sendAck_schedCount (s : State) : (sendAck s).schedCount = s.schedCount := rfl
@[simp] theorem sendAck_drawCount (s : State) : (sendAck s).drawCount = s.drawCount := rfl

/-! ### markAcked -/

@[simp] theorem markAcked_cfg (s : State) : (markAcked s).cfg = s.cfg := rfl
@[simp] theorem markAcked_cp (s : State) : (markAcked s).cp = s.cp := rfl
@[simp] theorem markAcked_tx (s : State) :
    (markAcked s).tx = { s.tx with txh := { s.tx.txh with acked := true } } := rfl
@[simp] theorem markAcked_oq (s : State) : (markAcked s).oq = s.oq := rfl
@[simp] theorem markAcked_rx (s : State) : (markAcked s).rx = s.rx := rfl
@[simp] theorem markAcked_iq (s : State) : (markAcked s).iq = s.iq := rfl
@[simp] theorem markAcked_hosts (s : State) : (markAcked s).hosts = s.hosts := rfl
@[simp] theorem markAcked_chan (s : State) : (markAcked s).chan = s.chan := rfl
@[simp] theorem markAcked_sched (s : State) : (markAcked s).sched = s.sched := rfl
@[simp] theorem markAcked_schedCount (s : State) : (markAcked s).schedCount = s.schedCount := rfl
@[simp] theorem markAcked_drawCount (s : State) : (markAcked s).drawCount = s.drawCount := rfl

/-! ### recvIssue -/

@[simp] theorem recvIssue_cfg (h : Nat) (s : State) : (recvIssue h s).cfg = s.cfg := rfl
@[simp] theorem recvIssue_cp (h : Nat) (s : State) : (recvIssue h s).cp = s.cp := rfl
@[simp] theorem recvIssue_tx (h : Nat) (s : State) : (recvIssue h s).tx = s.tx := rfl
@[simp] theorem recvIssue_oq (h : Nat) (s : State) : (recvIssue h s).oq = s.oq := rfl
@[simp] theorem recvIssue_rx (h : Nat) (s : State) : (recvIssue h s).rx = s.rx := rfl
@[simp] theorem recvIssue_iq (h : Nat) (s : State) : (recvIssue h s).iq = s.iq := rfl
@[simp] theorem recvIssue_hosts (h : Nat) (s : State) :
    (recvIssue h s).hosts = tableSet HostRegs.reset s.hosts h { hostAt s h with blocked := true } := rfl
@[simp] theorem recvIssue_chan (h : Nat) (s : State) : (recvIssue h s).chan = s.chan := rfl
@[simp] theorem recvIssue_sched (h : Nat) (s : State) : (recvIssue h s).sched = s.sched := rfl
@[simp] theorem recvIssue_schedCount (h : Nat) (s : State) : (recvIssue h s).schedCount = s.schedCount := rfl
@[simp] theorem recvIssue_drawCount (h : Nat) (s : State) : (recvIssue h s).drawCount = s.drawCount := rfl

/-! ### recvComplete -/

@[simp] theorem recvComplete_cfg (h : Nat) (e : InEntry) (q : List InEntry) (s : State) :
    (recvComplete h e q s).cfg = s.cfg := rfl
@[simp] theorem recvComplete_cp (h : Nat) (e : InEntry) (q : List InEntry) (s : State) :
    (recvComplete h e q s).cp = s.cp := rfl
@[simp] theorem recvComplete_tx (h : Nat) (e : InEntry) (q : List InEntry) (s : State) :
    (recvComplete h e q s).tx = s.tx := rfl
@[simp] theorem recvComplete_oq (h : Nat) (e : InEntry) (q : List InEntry) (s : State) :
    (recvComplete h e q s).oq = s.oq := rfl
@[simp] theorem recvComplete_rx (h : Nat) (e : InEntry) (q : List InEntry) (s : State) :
    (recvComplete h e q s).rx = s.rx := rfl
@[simp] theorem recvComplete_iq (h : Nat) (e : InEntry) (q : List InEntry) (s : State) :
    (recvComplete h e q s).iq = q := rfl
@[simp] theorem recvComplete_hosts (h : Nat) (e : InEntry) (q : List InEntry) (s : State) :
    (recvComplete h e q s).hosts = tableSet HostRegs.reset s.hosts h ⟨false, BitVec.ofNat 32 e.payload.length, e.src, e.payload⟩ := rfl
@[simp] theorem recvComplete_chan (h : Nat) (e : InEntry) (q : List InEntry) (s : State) :
    (recvComplete h e q s).chan = s.chan := rfl
@[simp] theorem recvComplete_sched (h : Nat) (e : InEntry) (q : List InEntry) (s : State) :
    (recvComplete h e q s).sched = s.sched := rfl
@[simp] theorem recvComplete_schedCount (h : Nat) (e : InEntry) (q : List InEntry) (s : State) :
    (recvComplete h e q s).schedCount = s.schedCount := rfl
@[simp] theorem recvComplete_drawCount (h : Nat) (e : InEntry) (q : List InEntry) (s : State) :
    (recvComplete h e q s).drawCount = s.drawCount := rfl

/-! ### setResult -/

@[simp] theorem setResult_cfg (h : Nat) (v : Word32) (s : State) : (setResult h v s).cfg = s.cfg := rfl
@[simp] theorem setResult_cp (h : Nat) (v : Word32) (s : State) : (setResult h v s).cp = s.cp := rfl
@[simp] theorem setResult_tx (h : Nat) (v : Word32) (s : State) : (setResult h v s).tx = s.tx := rfl
@[simp] theorem setResult_oq (h : Nat) (v : Word32) (s : State) : (setResult h v s).oq = s.oq := rfl
@[simp] theorem setResult_rx (h : Nat) (v : Word32) (s : State) : (setResult h v s).rx = s.rx := rfl
@[simp] theorem setResult_iq (h : Nat) (v : Word32) (s : State) : (setResult h v s).iq = s.iq := rfl
@[simp] theorem setResult_hosts (h : Nat) (v : Word32) (s : State) :
    (setResult h v s).hosts = tableSet HostRegs.reset s.hosts h { hostAt s h with result := v } := rfl
@[simp] theorem setResult_chan (h : Nat) (v : Word32) (s : State) : (setResult h v s).chan = s.chan := rfl
@[simp] theorem setResult_sched (h : Nat) (v : Word32) (s : State) : (setResult h v s).sched = s.sched := rfl
@[simp] theorem setResult_schedCount (h : Nat) (v : Word32) (s : State) :
    (setResult h v s).schedCount = s.schedCount := rfl
@[simp] theorem setResult_drawCount (h : Nat) (v : Word32) (s : State) :
    (setResult h v s).drawCount = s.drawCount := rfl

/-! ### envTick -/

@[simp] theorem envTick_cfg (d : Time) (s : State) : (envTick d s).cfg = s.cfg := rfl
@[simp] theorem envTick_cp (d : Time) (s : State) : (envTick d s).cp = s.cp := rfl
@[simp] theorem envTick_tx (d : Time) (s : State) : (envTick d s).tx = s.tx := rfl
@[simp] theorem envTick_oq (d : Time) (s : State) : (envTick d s).oq = s.oq := rfl
@[simp] theorem envTick_rx (d : Time) (s : State) : (envTick d s).rx = s.rx := rfl
@[simp] theorem envTick_iq (d : Time) (s : State) : (envTick d s).iq = s.iq := rfl
@[simp] theorem envTick_hosts (d : Time) (s : State) : (envTick d s).hosts = s.hosts := rfl
@[simp] theorem envTick_chan (d : Time) (s : State) :
    (envTick d s).chan = { s.chan with clock := s.chan.clock + d } := rfl
@[simp] theorem envTick_sched (d : Time) (s : State) : (envTick d s).sched = s.sched := rfl
@[simp] theorem envTick_schedCount (d : Time) (s : State) : (envTick d s).schedCount = s.schedCount := rfl
@[simp] theorem envTick_drawCount (d : Time) (s : State) : (envTick d s).drawCount = s.drawCount := rfl

/-! ### envBusy -/

@[simp] theorem envBusy_cfg (b : Bool) (s : State) : (envBusy b s).cfg = s.cfg := rfl
@[simp] theorem envBusy_cp (b : Bool) (s : State) : (envBusy b s).cp = s.cp := rfl
@[simp] theorem envBusy_tx (b : Bool) (s : State) : (envBusy b s).tx = s.tx := rfl
@[simp] theorem envBusy_oq (b : Bool) (s : State) : (envBusy b s).oq = s.oq := rfl
@[simp] theorem envBusy_rx (b : Bool) (s : State) : (envBusy b s).rx = s.rx := rfl
@[simp] theorem envBusy_iq (b : Bool) (s : State) : (envBusy b s).iq = s.iq := rfl
@[simp] theorem envBusy_hosts (b : Bool) (s : State) : (envBusy b s).hosts = s.hosts := rfl
@[simp] theorem envBusy_chan (b : Bool) (s : State) : (envBusy b s).chan = { s.chan with busy := b } := rfl
@[simp] theorem envBusy_sched (b : Bool) (s : State) : (envBusy b s).sched = s.sched := rfl
@[simp] theorem envBusy_schedCount (b : Bool) (s : State) : (envBusy b s).schedCount = s.schedCount := rfl
@[simp] theorem envBusy_drawCount (b : Bool) (s : State) : (envBusy b s).drawCount = s.drawCount := rfl

/-! ### envArrive -/

@[simp] theorem envArrive_cfg (b : Bytes) (s : State) : (envArrive b s).cfg = s.cfg := rfl
@[simp] theorem envArrive_cp (b : Bytes) (s : State) : (envArrive b s).cp = s.cp := rfl
@[simp] theorem envArrive_tx (b : Bytes) (s : State) : (envArrive b s).tx = s.tx := rfl
@[simp] theorem envArrive_oq (b : Bytes) (s : State) : (envArrive b s).oq = s.oq := rfl
@[simp] theorem envArrive_rx (b : Bytes) (s : State) : (envArrive b s).rx = s.rx := rfl
@[simp] theorem envArrive_iq (b : Bytes) (s : State) : (envArrive b s).iq = s.iq := rfl
@[simp] theorem envArrive_hosts (b : Bytes) (s : State) : (envArrive b s).hosts = s.hosts := rfl
@[simp] theorem envArrive_chan (b : Bytes) (s : State) :
    (envArrive b s).chan = { s.chan with rxq := s.chan.rxq ++ [b] } := rfl
@[simp] theorem envArrive_sched (b : Bytes) (s : State) : (envArrive b s).sched = s.sched := rfl
@[simp] theorem envArrive_schedCount (b : Bytes) (s : State) :
    (envArrive b s).schedCount = s.schedCount := rfl
@[simp] theorem envArrive_drawCount (b : Bytes) (s : State) : (envArrive b s).drawCount = s.drawCount := rfl

/-! ### envIdleTime -/

@[simp] theorem envIdleTime_cfg (d : Time) (s : State) : (envIdleTime d s).cfg = s.cfg := rfl
@[simp] theorem envIdleTime_cp (d : Time) (s : State) : (envIdleTime d s).cp = s.cp := rfl
@[simp] theorem envIdleTime_tx (d : Time) (s : State) : (envIdleTime d s).tx = s.tx := rfl
@[simp] theorem envIdleTime_oq (d : Time) (s : State) : (envIdleTime d s).oq = s.oq := rfl
@[simp] theorem envIdleTime_rx (d : Time) (s : State) : (envIdleTime d s).rx = s.rx := rfl
@[simp] theorem envIdleTime_iq (d : Time) (s : State) : (envIdleTime d s).iq = s.iq := rfl
@[simp] theorem envIdleTime_hosts (d : Time) (s : State) : (envIdleTime d s).hosts = s.hosts := rfl
@[simp] theorem envIdleTime_chan (d : Time) (s : State) :
    (envIdleTime d s).chan = { s.chan with idleTime := d } := rfl
@[simp] theorem envIdleTime_sched (d : Time) (s : State) : (envIdleTime d s).sched = s.sched := rfl
@[simp] theorem envIdleTime_schedCount (d : Time) (s : State) :
    (envIdleTime d s).schedCount = s.schedCount := rfl
@[simp] theorem envIdleTime_drawCount (d : Time) (s : State) :
    (envIdleTime d s).drawCount = s.drawCount := rfl

end Sys2Proof.Machine
end

