-- ==== Sys2Proof/Laws/Tables.lean ====
section
/-! SUPPORT. The tables: a read after a write, and that a write keeps the canonical form [log 14]. -/

namespace Sys2Proof.Machine

variable {α : Type}

@[simp] theorem tableGet_insert_same (d : α) (t : Table α) (k : Nat) (v : α) :
    tableGet d (tableInsert k v t) k = v := by
  induction t with
  | nil => simp [tableInsert, tableGet]
  | cons e r ih =>
    obtain ⟨j, w⟩ := e
    simp only [tableInsert]
    split
    · simp [tableGet]
    · split
      · simp [tableGet]
      · rename_i h
        simp [tableGet, Ne.symm h, ih]

theorem tableGet_insert_of_ne (d : α) (t : Table α) {k j : Nat} (v : α) (h : j ≠ k) :
    tableGet d (tableInsert k v t) j = tableGet d t j := by
  induction t with
  | nil => simp [tableInsert, tableGet, Ne.symm h]
  | cons e r ih =>
    obtain ⟨i, w⟩ := e
    simp only [tableInsert]
    split
    · simp [tableGet, Ne.symm h]
    · split
      · rename_i hk
        subst hk
        simp [tableGet, Ne.symm h]
      · simp [tableGet, ih]

@[simp] theorem tableGet_erase_same (d : α) (t : Table α) (k : Nat) :
    tableGet d (tableErase k t) k = d := by
  induction t with
  | nil => rfl
  | cons e r ih =>
    obtain ⟨j, w⟩ := e
    simp only [tableErase]
    split
    · exact ih
    · rename_i hk
      simp [tableGet, Ne.symm hk, ih]

theorem tableGet_erase_of_ne (d : α) (t : Table α) {k j : Nat} (h : j ≠ k) :
    tableGet d (tableErase k t) j = tableGet d t j := by
  induction t with
  | nil => rfl
  | cons e r ih =>
    obtain ⟨i, w⟩ := e
    simp only [tableErase]
    split
    · rename_i hk
      subst hk
      simp [tableGet, Ne.symm h, ih]
    · simp [tableGet, ih]

/-- A read after a write to the same key gives the value written. -/
@[simp] theorem tableGet_set_same [DecidableEq α] (d : α) (t : Table α) (k : Nat) (v : α) :
    tableGet d (tableSet d t k v) k = v := by
  unfold tableSet
  split
  · rename_i hv
    rw [tableGet_erase_same, hv]
  · simp

/-- A write leaves every other key as it is. -/
theorem tableGet_set_of_ne [DecidableEq α] (d : α) (t : Table α) {k j : Nat} (v : α) (h : j ≠ k) :
    tableGet d (tableSet d t k v) j = tableGet d t j := by
  unfold tableSet
  split
  · exact tableGet_erase_of_ne d t h
  · exact tableGet_insert_of_ne d t v h

theorem mem_tableErase {t : Table α} {k : Nat} {e : Nat × α} (h : e ∈ tableErase k t) : e ∈ t := by
  induction t with
  | nil => exact h
  | cons x r ih =>
    obtain ⟨j, w⟩ := x
    simp only [tableErase] at h
    split at h
    · exact List.mem_cons_of_mem _ (ih h)
    · rcases List.mem_cons.1 h with rfl | h
      · exact List.mem_cons_self
      · exact List.mem_cons_of_mem _ (ih h)

theorem mem_tableInsert {t : Table α} {k : Nat} {v : α} {e : Nat × α} (h : e ∈ tableInsert k v t) :
    e = (k, v) ∨ e ∈ t := by
  induction t with
  | nil => simpa [tableInsert] using h
  | cons x r ih =>
    obtain ⟨j, w⟩ := x
    simp only [tableInsert] at h
    split at h
    · simpa using h
    · split at h
      · rcases List.mem_cons.1 h with rfl | h
        · exact .inl rfl
        · exact .inr (List.mem_cons_of_mem _ h)
      · rcases List.mem_cons.1 h with rfl | h
        · exact .inr List.mem_cons_self
        · exact (ih h).imp id (List.mem_cons_of_mem _)

theorem tableErase_sorted {t : Table α} {k : Nat} (h : (t.map Prod.fst).Pairwise (· < ·)) :
    ((tableErase k t).map Prod.fst).Pairwise (· < ·) := by
  induction t with
  | nil => exact h
  | cons x r ih =>
    obtain ⟨j, w⟩ := x
    simp only [List.map_cons, List.pairwise_cons] at h
    simp only [tableErase]
    split
    · exact ih h.2
    · simp only [List.map_cons, List.pairwise_cons]
      refine ⟨fun i hi => ?_, ih h.2⟩
      obtain ⟨e, he, rfl⟩ := List.mem_map.1 hi
      exact h.1 e.1 (List.mem_map_of_mem (mem_tableErase he))

theorem tableInsert_sorted {t : Table α} {k : Nat} {v : α} (h : (t.map Prod.fst).Pairwise (· < ·)) :
    ((tableInsert k v t).map Prod.fst).Pairwise (· < ·) := by
  induction t with
  | nil => simp [tableInsert]
  | cons x r ih =>
    obtain ⟨j, w⟩ := x
    have h' := h
    simp only [List.map_cons, List.pairwise_cons] at h'
    simp only [tableInsert]
    split
    · rename_i hk
      simp only [List.map_cons, List.pairwise_cons]
      refine ⟨fun i hi => ?_, h'⟩
      rcases List.mem_cons.1 hi with rfl | hi
      · exact hk
      · exact lt_trans hk (h'.1 i hi)
    · split
      · rename_i _ hk
        subst hk
        simpa using h'
      · rename_i h1 h2
        simp only [List.map_cons, List.pairwise_cons]
        refine ⟨fun i hi => ?_, ih h'.2⟩
        obtain ⟨e, he, rfl⟩ := List.mem_map.1 hi
        rcases mem_tableInsert he with rfl | he
        · show j < k
          omega
        · exact h'.1 e.1 (List.mem_map_of_mem he)

/-- A write keeps the canonical form. -/
theorem tableSet_canonical [DecidableEq α] (d : α) (t : Table α) (k : Nat) (v : α)
    (h : TableCanonical d t) : TableCanonical d (tableSet d t k v) := by
  unfold tableSet
  split
  · exact ⟨tableErase_sorted h.1, fun e he => h.2 e (mem_tableErase he)⟩
  · rename_i hv
    refine ⟨tableInsert_sorted h.1, fun e he => ?_⟩
    rcases mem_tableInsert he with rfl | he
    · exact hv
    · exact h.2 e he

/-- Every entry after a write is the one written or was there before. -/
theorem mem_tableSet [DecidableEq α] {d : α} {t : Table α} {k : Nat} {v : α} {e : Nat × α}
    (h : e ∈ tableSet d t k v) : e = (k, v) ∨ e ∈ t := by
  unfold tableSet at h
  split at h
  · exact .inr (mem_tableErase h)
  · exact mem_tableInsert h

end Sys2Proof.Machine
end

