-- ==== Sys2Proof/Laws/Ops.lean ====
section
/-! SUPPORT. What each shared operation can do, said once: for an operation that branches, one lemma
with its cases, and one simp lemma for each field no case touches. -/

namespace Sys2Proof.Machine

/-! ### BackoffDraw (R197) -/

theorem reloadBackoff_cases (s : State) :
    ∃ b n, reloadBackoff s = { s with cp := { s.cp with backoff := b }, drawCount := n }
      ∧ b.toNat ≤ s.cp.cw.toNat ∧ (s.cp.fixedSlot = true → b = s.cp.cw ∧ n = s.drawCount) := by
  unfold reloadBackoff
  split
  · exact ⟨s.cp.cw, s.drawCount, rfl, le_refl _, fun _ => ⟨rfl, rfl⟩⟩
  · rename_i h
    refine ⟨_, _, rfl, ?_, fun hf => absurd hf h⟩
    have hw := s.cp.cw.isLt
    have hd : drawBetween s.drawCount 0 s.cp.cw.toNat ≤ s.cp.cw.toNat := by
      simp only [drawBetween, Nat.sub_zero, Nat.zero_add]
      exact Nat.lt_succ_iff.1 (Nat.mod_lt _ (Nat.succ_pos _))
    rw [BitVec.toNat_ofNat, Nat.mod_eq_of_lt (by omega)]
    exact hd

@[simp] theorem reloadBackoff_cfg (s : State) : (reloadBackoff s).cfg = s.cfg := by
  unfold reloadBackoff; split <;> rfl

@[simp] theorem reloadBackoff_tx (s : State) : (reloadBackoff s).tx = s.tx := by
  unfold reloadBackoff; split <;> rfl

@[simp] theorem reloadBackoff_oq (s : State) : (reloadBackoff s).oq = s.oq := by
  unfold reloadBackoff; split <;> rfl

@[simp] theorem reloadBackoff_rx (s : State) : (reloadBackoff s).rx = s.rx := by
  unfold reloadBackoff; split <;> rfl

@[simp] theorem reloadBackoff_iq (s : State) : (reloadBackoff s).iq = s.iq := by
  unfold reloadBackoff; split <;> rfl

@[simp] theorem reloadBackoff_hosts (s : State) : (reloadBackoff s).hosts = s.hosts := by
  unfold reloadBackoff; split <;> rfl

@[simp] theorem reloadBackoff_chan (s : State) : (reloadBackoff s).chan = s.chan := by
  unfold reloadBackoff; split <;> rfl

@[simp] theorem reloadBackoff_sched (s : State) : (reloadBackoff s).sched = s.sched := by
  unfold reloadBackoff; split <;> rfl

@[simp] theorem reloadBackoff_schedCount (s : State) : (reloadBackoff s).schedCount = s.schedCount := by
  unfold reloadBackoff; split <;> rfl

/-! ### The beacon check (R146, R175, R176) -/

theorem insertBeacon_cases (ts : Bytes) (s : State) :
    (occupancy s < s.cfg.oqCap + s.cfg.oqHeadroom ∧
      insertBeacon ts s = pushFrontOq (freshEntry (beaconFrame s ts)) (setOutSeq bcast (outSeqAt s bcast + 1) s))
    ∨ (¬ occupancy s < s.cfg.oqCap + s.cfg.oqHeadroom ∧ insertBeacon ts s = s) := by
  unfold insertBeacon
  split
  · exact .inl ⟨‹_›, rfl⟩
  · exact .inr ⟨‹_›, rfl⟩

theorem beaconCheck_cases (s : State) :
    (beaconDue s = false ∧ beaconCheck s = s)
    ∨ (beaconDue s = true ∧
        beaconCheck s
          = insertBeacon (be64 (now s)) (removeBeacons { s with cp := { s.cp with lastBeacon := now s } })) := by
  unfold beaconCheck maybeBeaconPayload
  cases h : beaconDue s
  · exact .inl ⟨rfl, rfl⟩
  · exact .inr ⟨rfl, rfl⟩

@[simp] theorem insertBeacon_cfg (ts : Bytes) (s : State) : (insertBeacon ts s).cfg = s.cfg := by
  unfold insertBeacon; split <;> rfl

@[simp] theorem insertBeacon_cp (ts : Bytes) (s : State) : (insertBeacon ts s).cp = s.cp := by
  unfold insertBeacon; split <;> rfl

@[simp] theorem insertBeacon_tx (ts : Bytes) (s : State) : (insertBeacon ts s).tx = s.tx := by
  unfold insertBeacon; split <;> rfl

@[simp] theorem insertBeacon_iq (ts : Bytes) (s : State) : (insertBeacon ts s).iq = s.iq := by
  unfold insertBeacon; split <;> rfl

@[simp] theorem insertBeacon_hosts (ts : Bytes) (s : State) : (insertBeacon ts s).hosts = s.hosts := by
  unfold insertBeacon; split <;> rfl

@[simp] theorem insertBeacon_chan (ts : Bytes) (s : State) : (insertBeacon ts s).chan = s.chan := by
  unfold insertBeacon; split <;> rfl

@[simp] theorem insertBeacon_sched (ts : Bytes) (s : State) : (insertBeacon ts s).sched = s.sched := by
  unfold insertBeacon; split <;> rfl

@[simp] theorem insertBeacon_schedCount (ts : Bytes) (s : State) : (insertBeacon ts s).schedCount = s.schedCount := by
  unfold insertBeacon; split <;> rfl

@[simp] theorem insertBeacon_drawCount (ts : Bytes) (s : State) : (insertBeacon ts s).drawCount = s.drawCount := by
  unfold insertBeacon; split <;> rfl

@[simp] theorem beaconCheck_cfg (s : State) : (beaconCheck s).cfg = s.cfg := by
  rcases beaconCheck_cases s with ⟨_, h⟩ | ⟨_, h⟩ <;> simp [h]

@[simp] theorem beaconCheck_tx (s : State) : (beaconCheck s).tx = s.tx := by
  rcases beaconCheck_cases s with ⟨_, h⟩ | ⟨_, h⟩ <;> simp [h]

@[simp] theorem beaconCheck_iq (s : State) : (beaconCheck s).iq = s.iq := by
  rcases beaconCheck_cases s with ⟨_, h⟩ | ⟨_, h⟩ <;> simp [h]

@[simp] theorem beaconCheck_hosts (s : State) : (beaconCheck s).hosts = s.hosts := by
  rcases beaconCheck_cases s with ⟨_, h⟩ | ⟨_, h⟩ <;> simp [h]

@[simp] theorem beaconCheck_chan (s : State) : (beaconCheck s).chan = s.chan := by
  rcases beaconCheck_cases s with ⟨_, h⟩ | ⟨_, h⟩ <;> simp [h]

@[simp] theorem beaconCheck_sched (s : State) : (beaconCheck s).sched = s.sched := by
  rcases beaconCheck_cases s with ⟨_, h⟩ | ⟨_, h⟩ <;> simp [h]

@[simp] theorem beaconCheck_schedCount (s : State) : (beaconCheck s).schedCount = s.schedCount := by
  rcases beaconCheck_cases s with ⟨_, h⟩ | ⟨_, h⟩ <;> simp [h]

@[simp] theorem beaconCheck_drawCount (s : State) : (beaconCheck s).drawCount = s.drawCount := by
  rcases beaconCheck_cases s with ⟨_, h⟩ | ⟨_, h⟩ <;> simp [h]

/-! ### EnqueueAck (R231) -/

theorem enqueueAck_cases (a : Addr) (n : Seq) (s : State) :
    (occupancy s < s.cfg.oqCap + s.cfg.oqHeadroom ∧
      enqueueAck a n s = pushFrontOq (freshEntry (makeAck s.cfg n a)) s)
    ∨ (¬ occupancy s < s.cfg.oqCap + s.cfg.oqHeadroom ∧ enqueueAck a n s = s) := by
  unfold enqueueAck
  split
  · exact .inl ⟨‹_›, rfl⟩
  · exact .inr ⟨‹_›, rfl⟩

@[simp] theorem enqueueAck_cfg (a : Addr) (n : Seq) (s : State) : (enqueueAck a n s).cfg = s.cfg := by
  unfold enqueueAck; split <;> rfl

@[simp] theorem enqueueAck_cp (a : Addr) (n : Seq) (s : State) : (enqueueAck a n s).cp = s.cp := by
  unfold enqueueAck; split <;> rfl

@[simp] theorem enqueueAck_tx (a : Addr) (n : Seq) (s : State) : (enqueueAck a n s).tx = s.tx := by
  unfold enqueueAck; split <;> rfl

@[simp] theorem enqueueAck_rx (a : Addr) (n : Seq) (s : State) : (enqueueAck a n s).rx = s.rx := by
  unfold enqueueAck; split <;> rfl

@[simp] theorem enqueueAck_iq (a : Addr) (n : Seq) (s : State) : (enqueueAck a n s).iq = s.iq := by
  unfold enqueueAck; split <;> rfl

@[simp] theorem enqueueAck_hosts (a : Addr) (n : Seq) (s : State) : (enqueueAck a n s).hosts = s.hosts := by
  unfold enqueueAck; split <;> rfl

@[simp] theorem enqueueAck_chan (a : Addr) (n : Seq) (s : State) : (enqueueAck a n s).chan = s.chan := by
  unfold enqueueAck; split <;> rfl

@[simp] theorem enqueueAck_sched (a : Addr) (n : Seq) (s : State) : (enqueueAck a n s).sched = s.sched := by
  unfold enqueueAck; split <;> rfl

@[simp] theorem enqueueAck_schedCount (a : Addr) (n : Seq) (s : State) : (enqueueAck a n s).schedCount = s.schedCount := by
  unfold enqueueAck; split <;> rfl

@[simp] theorem enqueueAck_drawCount (a : Addr) (n : Seq) (s : State) : (enqueueAck a n s).drawCount = s.drawCount := by
  unfold enqueueAck; split <;> rfl

/-! ### The sequence tracker (R233 to R236) -/

theorem sightSource_cases (a : Addr) (s : State) :
    (inSeenAt s a = true ∧ sightSource a s = s)
    ∨ (inSeenAt s a = false ∧
        sightSource a s = setWindow a (emptyWindow s.cfg) (setInExp a 0#12 (setInSeen a true s))) := by
  unfold sightSource
  cases h : inSeenAt s a
  · exact .inr ⟨rfl, rfl⟩
  · exact .inl ⟨rfl, rfl⟩

@[simp] theorem sightSource_cfg (a : Addr) (s : State) : (sightSource a s).cfg = s.cfg := by
  unfold sightSource; split <;> rfl

@[simp] theorem sightSource_cp (a : Addr) (s : State) : (sightSource a s).cp = s.cp := by
  unfold sightSource; split <;> rfl

@[simp] theorem sightSource_tx (a : Addr) (s : State) : (sightSource a s).tx = s.tx := by
  unfold sightSource; split <;> rfl

@[simp] theorem sightSource_oq (a : Addr) (s : State) : (sightSource a s).oq = s.oq := by
  unfold sightSource; split <;> rfl

@[simp] theorem sightSource_iq (a : Addr) (s : State) : (sightSource a s).iq = s.iq := by
  unfold sightSource; split <;> rfl

@[simp] theorem sightSource_hosts (a : Addr) (s : State) : (sightSource a s).hosts = s.hosts := by
  unfold sightSource; split <;> rfl

@[simp] theorem sightSource_chan (a : Addr) (s : State) : (sightSource a s).chan = s.chan := by
  unfold sightSource; split <;> rfl

@[simp] theorem sightSource_sched (a : Addr) (s : State) : (sightSource a s).sched = s.sched := by
  unfold sightSource; split <;> rfl

@[simp] theorem sightSource_schedCount (a : Addr) (s : State) : (sightSource a s).schedCount = s.schedCount := by
  unfold sightSource; split <;> rfl

@[simp] theorem sightSource_drawCount (a : Addr) (s : State) : (sightSource a s).drawCount = s.drawCount := by
  unfold sightSource; split <;> rfl

theorem drainLoop_succ (a : Addr) (n : Nat) (s : State) :
    drainLoop a (n + 1) s =
      match (windowAt s a).head?.join with
      | none   => setWindow a ((windowAt s a).tail ++ [none]) s
      | some c =>
        if iqFull s then
          record .insufficientBufferSpace (setWindow a ((windowAt s a).tail ++ [none]) s)
        else
          drainLoop a n (setInExp a (inExpAt s a + 1)
            (deliver c (setWindow a ((windowAt s a).tail ++ [none]) s))) := rfl

@[simp] theorem drainLoop_cfg (a : Addr) (n : Nat) (s : State) : (drainLoop a n s).cfg = s.cfg := by
  induction n generalizing s with
  | zero => rfl
  | succ n ih =>
    rw [drainLoop_succ]
    split
    · simp
    · split <;> simp [ih]

@[simp] theorem drainLoop_tx (a : Addr) (n : Nat) (s : State) : (drainLoop a n s).tx = s.tx := by
  induction n generalizing s with
  | zero => rfl
  | succ n ih =>
    rw [drainLoop_succ]
    split
    · simp
    · split <;> simp [ih]

@[simp] theorem drainLoop_oq (a : Addr) (n : Nat) (s : State) : (drainLoop a n s).oq = s.oq := by
  induction n generalizing s with
  | zero => rfl
  | succ n ih =>
    rw [drainLoop_succ]
    split
    · simp
    · split <;> simp [ih]

@[simp] theorem drainLoop_hosts (a : Addr) (n : Nat) (s : State) : (drainLoop a n s).hosts = s.hosts := by
  induction n generalizing s with
  | zero => rfl
  | succ n ih =>
    rw [drainLoop_succ]
    split
    · simp
    · split <;> simp [ih]

@[simp] theorem drainLoop_chan (a : Addr) (n : Nat) (s : State) : (drainLoop a n s).chan = s.chan := by
  induction n generalizing s with
  | zero => rfl
  | succ n ih =>
    rw [drainLoop_succ]
    split
    · simp
    · split <;> simp [ih]

@[simp] theorem drainLoop_sched (a : Addr) (n : Nat) (s : State) : (drainLoop a n s).sched = s.sched := by
  induction n generalizing s with
  | zero => rfl
  | succ n ih =>
    rw [drainLoop_succ]
    split
    · simp
    · split <;> simp [ih]

@[simp] theorem drainLoop_schedCount (a : Addr) (n : Nat) (s : State) : (drainLoop a n s).schedCount = s.schedCount := by
  induction n generalizing s with
  | zero => rfl
  | succ n ih =>
    rw [drainLoop_succ]
    split
    · simp
    · split <;> simp [ih]

@[simp] theorem drainLoop_drawCount (a : Addr) (n : Nat) (s : State) : (drainLoop a n s).drawCount = s.drawCount := by
  induction n generalizing s with
  | zero => rfl
  | succ n ih =>
    rw [drainLoop_succ]
    split
    · simp
    · split <;> simp [ih]

@[simp] theorem drain_cfg (a : Addr) (s : State) : (drain a s).cfg = s.cfg := drainLoop_cfg a _ s
@[simp] theorem drain_tx (a : Addr) (s : State) : (drain a s).tx = s.tx := drainLoop_tx a _ s
@[simp] theorem drain_oq (a : Addr) (s : State) : (drain a s).oq = s.oq := drainLoop_oq a _ s
@[simp] theorem drain_hosts (a : Addr) (s : State) : (drain a s).hosts = s.hosts := drainLoop_hosts a _ s
@[simp] theorem drain_chan (a : Addr) (s : State) : (drain a s).chan = s.chan := drainLoop_chan a _ s
@[simp] theorem drain_sched (a : Addr) (s : State) : (drain a s).sched = s.sched := drainLoop_sched a _ s
@[simp] theorem drain_schedCount (a : Addr) (s : State) : (drain a s).schedCount = s.schedCount := drainLoop_schedCount a _ s
@[simp] theorem drain_drawCount (a : Addr) (s : State) : (drain a s).drawCount = s.drawCount := drainLoop_drawCount a _ s

theorem bufferAhead_cases (e : InEntry) (s : State) :
    (seqDistance e.seq (inExpAt s e.src) - 1 < s.cfg.winSlots ∧
      bufferAhead e s
        = setWindow e.src ((windowAt s e.src).set (seqDistance e.seq (inExpAt s e.src) - 1) (some e))
            (record .unspecifiedError s))
    ∨ (¬ seqDistance e.seq (inExpAt s e.src) - 1 < s.cfg.winSlots ∧
      bufferAhead e s = record .unspecifiedError s) := by
  by_cases h : seqDistance e.seq (inExpAt s e.src) - 1 < s.cfg.winSlots
  · exact .inl ⟨h, if_pos h⟩
  · exact .inr ⟨h, if_neg h⟩

theorem trackSequence_cases (e : InEntry) (s : State) :
    (seqCompare e.seq (inExpAt (sightSource e.src s) e.src) = .equal ∧
      trackSequence e s = acceptInOrder e (sightSource e.src s))
    ∨ (seqCompare e.seq (inExpAt (sightSource e.src s) e.src) = .ahead ∧
      trackSequence e s = bufferAhead e (sightSource e.src s))
    ∨ (seqCompare e.seq (inExpAt (sightSource e.src s) e.src) = .behind ∧
      trackSequence e s = enqueueAck e.src e.seq (sightSource e.src s)) := by
  unfold trackSequence
  cases h : seqCompare e.seq (inExpAt (sightSource e.src s) e.src) <;> simp [h]

/-! ### The broadcast filter (R240) and the dispatch (R222) -/

theorem bcastPass_some {n : Seq} {s t : State} (h : bcastPass n s = some t) :
    (seqCompare n s.rx.bcExp = .equal ∧ t = setBcExp (n + 1) s)
    ∨ (seqCompare n s.rx.bcExp = .ahead ∧ t = s) := by
  unfold bcastPass at h
  cases hc : seqCompare n s.rx.bcExp <;> simp [hc] at h
  · exact .inl ⟨rfl, h.symm⟩
  · exact .inr ⟨rfl, h.symm⟩

theorem bcastPass_none {n : Seq} {s : State} :
    bcastPass n s = none ↔ seqCompare n s.rx.bcExp = .behind := by
  unfold bcastPass
  cases hc : seqCompare n s.rx.bcExp <;> simp

theorem absorbPayload_cases (p : Bytes) (s : State) :
    absorbPayload p s = s
    ∨ (8 ≤ p.length ∧ now s < rdBE64 p 0 ∧
        absorbPayload p s = { s with cp := { s.cp with offset := s.cp.offset + (rdBE64 p 0 - now s) } }) := by
  unfold absorbPayload absorbBeacon
  split
  · split
    · exact .inr ⟨‹_›, ‹_›, rfl⟩
    · exact .inl rfl
  · exact .inl rfl

/-- The seven outcomes of the dispatch of a frame that is not corrupt, each with the condition under
which it is taken (R222). -/
theorem dispatch_cases (d : RxFrame) (s : State) :
    (∃ s', d.kind = .beacon ∧ isBroadcast d.dest = true ∧ s.cp.beaconEn = true
        ∧ bcastPass d.seq s = some s' ∧ dispatch d s = absorbPayload d.payload s')
    ∨ (iqFull s = true ∧ dispatch d s = record .insufficientBufferSpace s)
    ∨ (∃ s', iqFull s = false ∧ d.kind = .data ∧ isBroadcast d.dest = true
        ∧ bcastPass d.seq s = some s' ∧ dispatch d s = deliver (dataEntry d) s')
    ∨ (iqFull s = false ∧ isMine s.cfg d.dest = true ∧ d.kind = .ack ∧ ackMatch d s = true
        ∧ dispatch d s = markAcked s)
    ∨ (iqFull s = false ∧ isMine s.cfg d.dest = true ∧ d.kind = .data
        ∧ dispatch d s = trackSequence (dataEntry d) s)
    ∨ (iqFull s = false ∧ dispatch d s = s) := by
  unfold dispatch
  split
  · rename_i s' h
    split at h
    · rename_i hc
      exact .inl ⟨s', hc.1, hc.2.1, hc.2.2, h, rfl⟩
    · cases h
  · split
    · exact .inr (.inl ⟨‹_›, rfl⟩)
    · rename_i hf
      have hf' : iqFull s = false := by simpa using hf
      unfold dispatchRoom
      split
      · rename_i s' h
        split at h
        · rename_i hc
          exact .inr (.inr (.inl ⟨s', hf', hc.1, hc.2, h, rfl⟩))
        · cases h
      · split
        · rename_i hc
          exact .inr (.inr (.inr (.inl ⟨hf', hc.1, hc.2.1, hc.2.2, rfl⟩)))
        · split
          · rename_i hc
            exact .inr (.inr (.inr (.inr (.inl ⟨hf', hc.1, hc.2, rfl⟩))))
          · exact .inr (.inr (.inr (.inr (.inr ⟨hf', rfl⟩))))

/-! ### The transmit unit -/

theorem serveQueue_cases (s : State) :
    (s.oq = [] ∧ serveQueue s = s)
    ∨ (∃ e q, s.oq = e :: q ∧ e.frame.kind = .ack ∧ serveQueue s = enterAckPath false e q s)
    ∨ (∃ e q, s.oq = e :: q ∧ e.frame.kind ≠ .ack ∧ s.chan.busy = true
        ∧ serveQueue s = waitForIdle (loadHead e q s))
    ∨ (∃ e q, s.oq = e :: q ∧ e.frame.kind ≠ .ack ∧ s.chan.busy = false
        ∧ serveQueue s = enterDifsWait (loadHead e q s)) := by
  unfold serveQueue
  split
  · exact .inl ⟨‹_›, rfl⟩
  · rename_i e q h
    split
    · exact .inr (.inl ⟨e, q, h, ‹_›, rfl⟩)
    · cases hb : s.chan.busy
      · exact .inr (.inr (.inr ⟨e, q, h, ‹_›, rfl, by simp [initialCheck, hb]⟩))
      · exact .inr (.inr (.inl ⟨e, q, h, ‹_›, rfl, by simp [initialCheck, hb]⟩))

theorem enterBackoff_cases (s : State) :
    (s.cp.backoff = 0#16 ∧ enterBackoff s = toTransmit s)
    ∨ (s.cp.backoff ≠ 0#16 ∧ enterBackoff s = startSlot s) := by
  unfold enterBackoff
  split
  · exact .inl ⟨‹_›, rfl⟩
  · exact .inr ⟨‹_›, rfl⟩

theorem serveAckWhileWaiting_cases (s : State) :
    serveAckWhileWaiting s = s
    ∨ (∃ e q, s.oq = e :: q ∧ e.frame.kind = .ack ∧ serveAckWhileWaiting s = enterAckPath true e q s) := by
  unfold serveAckWhileWaiting
  split
  · exact .inl rfl
  · rename_i e q h
    split
    · exact .inr ⟨e, q, h, ‹_›, rfl⟩
    · exact .inl rfl

/-- A TX step answers a next state in every TX_STATE but the unused one (R171, R33). -/
theorem txStep_next {s t : State} (h : txStep s = .next t) :
    (s.tx.state = .idle ∧ t = txIdle s)
    ∨ (s.tx.state = .difsWait ∧ t = txDifsWait s)
    ∨ (s.tx.state = .backoffSlot ∧ t = txBackoffSlot s)
    ∨ (s.tx.state = .transmit ∧ t = txTransmit s)
    ∨ (s.tx.state = .awaitAck ∧ t = txAwaitAck s)
    ∨ (s.tx.state = .waitChannelIdle ∧ t = txWaitChannelIdle s)
    ∨ (s.tx.state = .sendAckSifs ∧ t = txSendAckSifs s) := by
  unfold txStep at h
  cases hs : s.tx.state <;> simp [hs] at h ⊢ <;> exact h.symm

/-! ### The scheduler -/

@[simp] theorem consumePick_cfg (s : State) : (consumePick s).cfg = s.cfg := by
  unfold consumePick; split <;> rfl

@[simp] theorem consumePick_cp (s : State) : (consumePick s).cp = s.cp := by
  unfold consumePick; split <;> rfl

@[simp] theorem consumePick_tx (s : State) : (consumePick s).tx = s.tx := by
  unfold consumePick; split <;> rfl

@[simp] theorem consumePick_oq (s : State) : (consumePick s).oq = s.oq := by
  unfold consumePick; split <;> rfl

@[simp] theorem consumePick_rx (s : State) : (consumePick s).rx = s.rx := by
  unfold consumePick; split <;> rfl

@[simp] theorem consumePick_iq (s : State) : (consumePick s).iq = s.iq := by
  unfold consumePick; split <;> rfl

@[simp] theorem consumePick_hosts (s : State) : (consumePick s).hosts = s.hosts := by
  unfold consumePick; split <;> rfl

@[simp] theorem consumePick_chan (s : State) : (consumePick s).chan = s.chan := by
  unfold consumePick; split <;> rfl

@[simp] theorem consumePick_drawCount (s : State) : (consumePick s).drawCount = s.drawCount := by
  unfold consumePick; split <;> rfl

/-- A step that answers a next state is a step of the agent picked, in a legal configuration. -/
theorem step_next {s t : State} (h : step s = .next t) :
    s.cfg.ok = true ∧ runAgent (nextStep s) (consumePick s) = .next t := by
  unfold step stationStep at h
  split at h
  · exact ⟨‹_›, h⟩
  · cases h

theorem step_of_ok {s : State} (h : s.cfg.ok = true) :
    step s = runAgent (nextStep s) (consumePick s) := if_pos h

/-- What a host command's step does (R270). -/
theorem hostStep_cases (h : Nat) (k : HostCommand) (s : State) :
    (hostReady h s = false ∧ hostStep h k s = .next s)
    ∨ (hostReady h s = true ∧ ∃ i, decodeHost h k = .ok i ∧ hostStep h k s = exec i s)
    ∨ (hostReady h s = true ∧ (∃ r, decodeHost h k = .error r) ∧ hostStep h k s = .next (illegalWord h s)) := by
  unfold hostStep
  cases hr : hostReady h s
  · exact .inl ⟨rfl, rfl⟩
  · cases hd : decodeHost h k with
    | ok i    => exact .inr (.inl ⟨rfl, i, rfl, rfl⟩)
    | error r => exact .inr (.inr ⟨rfl, ⟨r, rfl⟩, rfl⟩)

end Sys2Proof.Machine
end

