-- ==== Sys2Proof/Laws/Accessors.lean ====
section
/-! SUPPORT. Reading a table entry or an agent's registers after an update: the entry written, the others
unchanged, and every read unchanged by an update that touches neither its table nor the parameters. -/

namespace Sys2Proof.Machine

theorem addr_toNat_ne {a b : Addr} (h : b ≠ a) : b.toNat ≠ a.toNat := fun he => h (BitVec.eq_of_toNat_eq he)

@[simp] theorem outSeqAt_setOutSeq_same (s : State) (a : Addr) (v : Seq) : outSeqAt (setOutSeq a v s) a = v :=
  tableGet_set_same _ _ _ _

theorem outSeqAt_setOutSeq_of_ne (s : State) {a b : Addr} (v : Seq) (h : b ≠ a) :
    outSeqAt (setOutSeq a v s) b = outSeqAt s b :=
  tableGet_set_of_ne _ _ v (addr_toNat_ne h)

@[simp] theorem outSeqAt_setInSeen (s : State) (a b : Addr) (v : Bool) : outSeqAt (setInSeen a v s) b = outSeqAt s b := rfl

@[simp] theorem outSeqAt_setInExp (s : State) (a b : Addr) (v : Seq) : outSeqAt (setInExp a v s) b = outSeqAt s b := rfl

@[simp] theorem outSeqAt_setWindow (s : State) (a b : Addr) (v : Window) : outSeqAt (setWindow a v s) b = outSeqAt s b := rfl

theorem outSeqAt_congr {s t : State} (h : t.rx.outSeq = s.rx.outSeq) (a : Addr) :
    outSeqAt t a = outSeqAt s a := by simp [outSeqAt, h]

@[simp] theorem outSeqAt_record (s : State) (c : Status) (b : Addr) : outSeqAt (record c s) b = outSeqAt s b := rfl

@[simp] theorem outSeqAt_deliver (s : State) (e : InEntry) (b : Addr) : outSeqAt (deliver e s) b = outSeqAt s b := rfl

@[simp] theorem outSeqAt_setBcExp (s : State) (v : Seq) (b : Addr) : outSeqAt (setBcExp v s) b = outSeqAt s b := rfl

@[simp] theorem outSeqAt_pushFrontOq (s : State) (e : OutEntry) (b : Addr) : outSeqAt (pushFrontOq e s) b = outSeqAt s b := rfl

@[simp] theorem outSeqAt_pushBackOq (s : State) (e : OutEntry) (b : Addr) : outSeqAt (pushBackOq e s) b = outSeqAt s b := rfl

@[simp] theorem outSeqAt_enqueueAck (s : State) (a : Addr) (n : Seq) (b : Addr) : outSeqAt (enqueueAck a n s) b = outSeqAt s b := by
  simp [outSeqAt]

@[simp] theorem inSeenAt_setInSeen_same (s : State) (a : Addr) (v : Bool) : inSeenAt (setInSeen a v s) a = v :=
  tableGet_set_same _ _ _ _

theorem inSeenAt_setInSeen_of_ne (s : State) {a b : Addr} (v : Bool) (h : b ≠ a) :
    inSeenAt (setInSeen a v s) b = inSeenAt s b :=
  tableGet_set_of_ne _ _ v (addr_toNat_ne h)

@[simp] theorem inSeenAt_setOutSeq (s : State) (a b : Addr) (v : Seq) : inSeenAt (setOutSeq a v s) b = inSeenAt s b := rfl

@[simp] theorem inSeenAt_setInExp (s : State) (a b : Addr) (v : Seq) : inSeenAt (setInExp a v s) b = inSeenAt s b := rfl

@[simp] theorem inSeenAt_setWindow (s : State) (a b : Addr) (v : Window) : inSeenAt (setWindow a v s) b = inSeenAt s b := rfl

theorem inSeenAt_congr {s t : State} (h : t.rx.inSeen = s.rx.inSeen) (a : Addr) :
    inSeenAt t a = inSeenAt s a := by simp [inSeenAt, h]

@[simp] theorem inSeenAt_record (s : State) (c : Status) (b : Addr) : inSeenAt (record c s) b = inSeenAt s b := rfl

@[simp] theorem inSeenAt_deliver (s : State) (e : InEntry) (b : Addr) : inSeenAt (deliver e s) b = inSeenAt s b := rfl

@[simp] theorem inSeenAt_setBcExp (s : State) (v : Seq) (b : Addr) : inSeenAt (setBcExp v s) b = inSeenAt s b := rfl

@[simp] theorem inSeenAt_pushFrontOq (s : State) (e : OutEntry) (b : Addr) : inSeenAt (pushFrontOq e s) b = inSeenAt s b := rfl

@[simp] theorem inSeenAt_pushBackOq (s : State) (e : OutEntry) (b : Addr) : inSeenAt (pushBackOq e s) b = inSeenAt s b := rfl

@[simp] theorem inSeenAt_enqueueAck (s : State) (a : Addr) (n : Seq) (b : Addr) : inSeenAt (enqueueAck a n s) b = inSeenAt s b := by
  simp [inSeenAt]

@[simp] theorem inExpAt_setInExp_same (s : State) (a : Addr) (v : Seq) : inExpAt (setInExp a v s) a = v :=
  tableGet_set_same _ _ _ _

theorem inExpAt_setInExp_of_ne (s : State) {a b : Addr} (v : Seq) (h : b ≠ a) :
    inExpAt (setInExp a v s) b = inExpAt s b :=
  tableGet_set_of_ne _ _ v (addr_toNat_ne h)

@[simp] theorem inExpAt_setOutSeq (s : State) (a b : Addr) (v : Seq) : inExpAt (setOutSeq a v s) b = inExpAt s b := rfl

@[simp] theorem inExpAt_setInSeen (s : State) (a b : Addr) (v : Bool) : inExpAt (setInSeen a v s) b = inExpAt s b := rfl

@[simp] theorem inExpAt_setWindow (s : State) (a b : Addr) (v : Window) : inExpAt (setWindow a v s) b = inExpAt s b := rfl

theorem inExpAt_congr {s t : State} (h : t.rx.inExp = s.rx.inExp) (a : Addr) :
    inExpAt t a = inExpAt s a := by simp [inExpAt, h]

@[simp] theorem inExpAt_record (s : State) (c : Status) (b : Addr) : inExpAt (record c s) b = inExpAt s b := rfl

@[simp] theorem inExpAt_deliver (s : State) (e : InEntry) (b : Addr) : inExpAt (deliver e s) b = inExpAt s b := rfl

@[simp] theorem inExpAt_setBcExp (s : State) (v : Seq) (b : Addr) : inExpAt (setBcExp v s) b = inExpAt s b := rfl

@[simp] theorem inExpAt_pushFrontOq (s : State) (e : OutEntry) (b : Addr) : inExpAt (pushFrontOq e s) b = inExpAt s b := rfl

@[simp] theorem inExpAt_pushBackOq (s : State) (e : OutEntry) (b : Addr) : inExpAt (pushBackOq e s) b = inExpAt s b := rfl

@[simp] theorem inExpAt_enqueueAck (s : State) (a : Addr) (n : Seq) (b : Addr) : inExpAt (enqueueAck a n s) b = inExpAt s b := by
  simp [inExpAt]

@[simp] theorem windowAt_setWindow_same (s : State) (a : Addr) (v : Window) : windowAt (setWindow a v s) a = v :=
  tableGet_set_same _ _ _ _

theorem windowAt_setWindow_of_ne (s : State) {a b : Addr} (v : Window) (h : b ≠ a) :
    windowAt (setWindow a v s) b = windowAt s b :=
  tableGet_set_of_ne _ _ v (addr_toNat_ne h)

@[simp] theorem windowAt_setOutSeq (s : State) (a b : Addr) (v : Seq) : windowAt (setOutSeq a v s) b = windowAt s b := rfl

@[simp] theorem windowAt_setInSeen (s : State) (a b : Addr) (v : Bool) : windowAt (setInSeen a v s) b = windowAt s b := rfl

@[simp] theorem windowAt_setInExp (s : State) (a b : Addr) (v : Seq) : windowAt (setInExp a v s) b = windowAt s b := rfl

theorem windowAt_congr {s t : State} (hc : t.cfg = s.cfg) (h : t.rx.win = s.rx.win) (a : Addr) :
    windowAt t a = windowAt s a := by simp [windowAt, h, hc]

@[simp] theorem windowAt_record (s : State) (c : Status) (b : Addr) : windowAt (record c s) b = windowAt s b := rfl

@[simp] theorem windowAt_deliver (s : State) (e : InEntry) (b : Addr) : windowAt (deliver e s) b = windowAt s b := rfl

@[simp] theorem windowAt_setBcExp (s : State) (v : Seq) (b : Addr) : windowAt (setBcExp v s) b = windowAt s b := rfl

@[simp] theorem windowAt_pushFrontOq (s : State) (e : OutEntry) (b : Addr) : windowAt (pushFrontOq e s) b = windowAt s b := rfl

@[simp] theorem windowAt_pushBackOq (s : State) (e : OutEntry) (b : Addr) : windowAt (pushBackOq e s) b = windowAt s b := rfl

@[simp] theorem windowAt_enqueueAck (s : State) (a : Addr) (n : Seq) (b : Addr) : windowAt (enqueueAck a n s) b = windowAt s b := by
  simp [windowAt]

@[simp] theorem hostAt_setHost_same (s : State) (h : Nat) (r : HostRegs) : hostAt (setHost h r s) h = r :=
  tableGet_set_same _ _ _ _

theorem hostAt_setHost_of_ne (s : State) {h g : Nat} (r : HostRegs) (hg : g ≠ h) :
    hostAt (setHost h r s) g = hostAt s g :=
  tableGet_set_of_ne _ _ r hg

@[simp] theorem hostAt_setResult_same (s : State) (h : Nat) (v : Word32) :
    hostAt (setResult h v s) h = { hostAt s h with result := v } :=
  tableGet_set_same _ _ _ _

theorem hostAt_setResult_of_ne (s : State) {h g : Nat} (v : Word32) (hg : g ≠ h) :
    hostAt (setResult h v s) g = hostAt s g :=
  tableGet_set_of_ne _ _ _ hg

theorem hostAt_congr {s t : State} (h : t.hosts = s.hosts) (g : Nat) : hostAt t g = hostAt s g := by
  simp [hostAt, h]

/-- Writing a RESULT over a state with the same host registers writes only that RESULT. -/
theorem resultOnly_setResult {s s' : State} (h : Nat) (v : Word32) (hs : s'.hosts = s.hosts) :
    ResultOnly h v s (setResult h v s') := by
  refine ⟨?_, fun g hg => ?_⟩
  · rw [hostAt_setResult_same, hostAt_congr hs]
  · rw [hostAt_setResult_of_ne _ _ hg, hostAt_congr hs]

end Sys2Proof.Machine
end

