-- ==== Sys2Proof/Laws/Codec.lean ====
section
/-! SUPPORT. The small lemmas of the codec's definitions: byte order, control word, host word. -/

namespace Sys2Proof

@[simp] theorem be16_length (v : BitVec 16) : (be16 v).length = 2 := rfl
@[simp] theorem be32_length (v : BitVec 32) : (be32 v).length = 4 := rfl
@[simp] theorem be64_length (v : BitVec 64) : (be64 v).length = 8 := rfl

theorem append_halves16 (v : BitVec 16) :
    (v.extractLsb' 8 8 ++ v.extractLsb' 0 8 : BitVec 16) = v := by
  ext i hi
  simp only [BitVec.getElem_append, BitVec.getElem_extractLsb']
  split
  · simp [BitVec.getLsbD_eq_getElem hi]
  · rw [show 8 + (i - 8) = i by omega, BitVec.getLsbD_eq_getElem hi]

theorem append_halves32 (v : BitVec 32) :
    ((v.extractLsb' 24 8 ++ v.extractLsb' 16 8) ++ (v.extractLsb' 8 8 ++ v.extractLsb' 0 8) : BitVec 32) = v := by
  ext i hi
  simp only [BitVec.getElem_append, BitVec.getElem_extractLsb']
  split <;> split
  · simp [BitVec.getLsbD_eq_getElem hi]
  · rw [show 8 + (i - 8) = i by omega, BitVec.getLsbD_eq_getElem hi]
  · rw [show 16 + (i - 16) = i by omega, BitVec.getLsbD_eq_getElem hi]
  · rw [show 24 + (i - (8 + 8) - 8) = i by omega, BitVec.getLsbD_eq_getElem hi]

/-- RdBE16 reads what BE16 wrote (R9). -/
@[simp] theorem rdBE16_be16 (v : BitVec 16) (r : Bytes) : rdBE16 (be16 v ++ r) 0 = v := by
  simpa [rdBE16, byteAt, be16] using append_halves16 v

/-- RdBE32 reads what BE32 wrote (R9). -/
@[simp] theorem rdBE32_be32 (v : BitVec 32) (r : Bytes) : rdBE32 (be32 v ++ r) 0 = v := by
  simpa [rdBE32, rdBE16, byteAt, be32] using append_halves32 v

/-- A read at an offset is a read at 0 of what stands there. -/
theorem rdBE16_append (a b : Bytes) (i : Nat) : rdBE16 (a ++ b) (a.length + i) = rdBE16 b i := by
  simp [rdBE16, byteAt, List.getD_eq_getElem?_getD, List.getElem?_append_right, Nat.add_assoc]

theorem rdBE32_append (a b : Bytes) (i : Nat) : rdBE32 (a ++ b) (a.length + i) = rdBE32 b i := by
  simp [rdBE32, rdBE16_append, Nat.add_assoc]

theorem packCtl_getLsbD (k : BitVec 3) (r : Bool) (n : Seq) (i : Nat) :
    (packCtl k r n).getLsbD i
      = if i < 12 then n.getLsbD i else if i = 12 then r else k.getLsbD (i - 13) := by
  refine (BitVec.getLsbD_append (x := k ++ BitVec.ofBool r) (y := n) (i := i)).trans ?_
  split
  · rfl
  · rw [BitVec.getLsbD_append]
    split
    · rw [show i - 12 = 0 by omega, if_pos (by omega)]
      cases r <;> rfl
    · rw [if_neg (by omega), show i - 12 - 1 = i - 13 by omega]

@[simp] theorem ctlKind_packCtl (k : BitVec 3) (r : Bool) (n : Seq) : ctlKind (packCtl k r n) = k := by
  ext i hi
  rw [ctlKind, BitVec.getElem_extractLsb', packCtl_getLsbD, if_neg (by omega), if_neg (by omega),
    show 13 + i - 13 = i by omega, BitVec.getLsbD_eq_getElem hi]

@[simp] theorem ctlRetry_packCtl (k : BitVec 3) (r : Bool) (n : Seq) : ctlRetry (packCtl k r n) = r := by
  rw [ctlRetry, packCtl_getLsbD, if_neg (by omega), if_pos rfl]

@[simp] theorem ctlSeq_packCtl (k : BitVec 3) (r : Bool) (n : Seq) : ctlSeq (packCtl k r n) = n := by
  ext i hi
  rw [ctlSeq, BitVec.getElem_extractLsb', packCtl_getLsbD, if_pos (by omega), Nat.zero_add,
    BitVec.getLsbD_eq_getElem hi]

@[simp] theorem kindOf_kindCode (k : Kind) : kindOf (kindCode k) = rxKindOf k := by cases k <;> rfl

@[simp] theorem frameBody_length (ctl : BitVec 16) (d a : Addr) (p : Bytes) :
    (frameBody ctl d a p).length = 6 + p.length := by
  simp [frameBody]; omega

@[simp] theorem sealBody_length (b : Bytes) : (sealBody b).length = b.length + 4 := by simp [sealBody]

/-- A frame is ten bytes longer than its payload (R80). -/
@[simp] theorem encodeFrame_length (f : Frame) : (encodeFrame f).length = 10 + f.payload.length := by
  simp [encodeFrame]; omega

theorem packWord_getLsbD (o c : BitVec 8) (a : Addr) (i : Nat) :
    (packWord o c a).getLsbD i
      = if i < 16 then a.getLsbD i else if i < 24 then c.getLsbD (i - 16) else o.getLsbD (i - 24) := by
  refine (BitVec.getLsbD_append (x := o ++ c) (y := a) (i := i)).trans ?_
  split
  · rfl
  · rw [BitVec.getLsbD_append]
    split
    · rw [if_pos (by omega)]
    · rw [if_neg (by omega), show i - 16 - 8 = i - 24 by omega]

@[simp] theorem cwOp_packWord (o c : BitVec 8) (a : Addr) : cwOp (packWord o c a) = o := by
  ext i hi
  rw [cwOp, BitVec.getElem_extractLsb', packWord_getLsbD, if_neg (by omega), if_neg (by omega),
    show 24 + i - 24 = i by omega, BitVec.getLsbD_eq_getElem hi]

@[simp] theorem cwCode_packWord (o c : BitVec 8) (a : Addr) : cwCode (packWord o c a) = c := by
  ext i hi
  rw [cwCode, BitVec.getElem_extractLsb', packWord_getLsbD, if_neg (by omega), if_pos (by omega),
    show 16 + i - 16 = i by omega, BitVec.getLsbD_eq_getElem hi]

@[simp] theorem cwAddr_packWord (o c : BitVec 8) (a : Addr) : cwAddr (packWord o c a) = a := by
  ext i hi
  rw [cwAddr, BitVec.getElem_extractLsb', packWord_getLsbD, if_pos (by omega), Nat.zero_add,
    BitVec.getLsbD_eq_getElem hi]

end Sys2Proof
end

