-- ==== Sys2Proof/Laws/PerInstr.lean ====
section
/-! SUPPORT. Facts about every instruction as syntax, one lemma per constructor. -/

namespace Sys2Proof.Laws

/-- A row of spec/opcode_table.json: which form it is matched on, and its match and mask. -/
structure OpcodeRow where
  frameRow : Bool
  code     : Nat
  mask     : Nat
deriving DecidableEq, Repr

/-- The rows of spec/opcode_table.json. -/
def opcodeRow : Instr → OpcodeRow
  | .data ..       => ⟨true, 0x0000, 0xE000⟩
  | .ack ..        => ⟨true, 0x2000, 0xE000⟩
  | .beacon ..     => ⟨true, 0x4000, 0xE000⟩
  | .send ..       => ⟨false, 0x01000000, 0xFF000000⟩
  | .recv ..       => ⟨false, 0x02000000, 0xFF000000⟩
  | .status ..     => ⟨false, 0x03000000, 0xFF000000⟩
  | .cmdHelp ..    => ⟨false, 0x04000000, 0xFFFF0000⟩
  | .cmdDebug ..   => ⟨false, 0x04010000, 0xFFFF0000⟩
  | .cmdSlotsel .. => ⟨false, 0x04020000, 0xFFFF0000⟩
  | .cmdBeacon ..  => ⟨false, 0x04030000, 0xFFFF0000⟩

/-- An encoding meets a row: CTL or CW32, masked, is the row's match. -/
def meetsRow (r : OpcodeRow) : Encoded → Bool
  | .frame b  => r.frameRow && (rdBE16 b 0 &&& BitVec.ofNat 16 r.mask) == BitVec.ofNat 16 r.code
  | .host _ k => !r.frameRow && (k.word &&& BitVec.ofNat 32 r.mask) == BitVec.ofNat 32 r.code

/-- CTL of an encoded frame (R112). -/
theorem ctl_encodeFrame (f : Frame) :
    rdBE16 (encodeFrame f) 0 = packCtl (kindCode f.kind) f.retry f.seq := by
  simp [encodeFrame, sealBody, frameBody, List.append_assoc]

/-- Bits 15:13 alone decide a frame row. -/
theorem packCtl_masked (k : BitVec 3) (r : Bool) (n : Seq) :
    packCtl k r n &&& 0xE000#16 = k.setWidth 16 <<< 13 := by
  ext i hi
  rw [BitVec.getElem_and, ← BitVec.getLsbD_eq_getElem, packCtl_getLsbD]
  have h16 : i < 16 := hi
  interval_cases i <;> simp

/-- Bits 31:24 of a command word with CODE and ADDR masked off. -/
theorem packWord_masked_op (o c : BitVec 8) (a : Addr) :
    packWord o c a &&& 0xFF000000#32 = o.setWidth 32 <<< 24 := by
  ext i hi
  rw [BitVec.getElem_and, ← BitVec.getLsbD_eq_getElem, packWord_getLsbD]
  have h32 : i < 32 := hi
  interval_cases i <;> simp

/-- Bits 31:16 of a command word with ADDR masked off. -/
theorem packWord_masked_code (o c : BitVec 8) (a : Addr) :
    packWord o c a &&& 0xFFFF0000#32 = o.setWidth 32 <<< 24 ||| c.setWidth 32 <<< 16 := by
  ext i hi
  rw [BitVec.getElem_and, ← BitVec.getLsbD_eq_getElem, packWord_getLsbD]
  have h32 : i < 32 := hi
  interval_cases i <;> simp

namespace TableRow

/-- The encoding of an instruction meets the instruction's own row of the opcode table. -/
def Statement (i : Instr) : Prop := meetsRow (opcodeRow i) (encode i) = true

theorem data (r : Bool) (n : Seq) (d a : Addr) (p : Bytes) : Statement (.data r n d a p) := by
  simp [Statement, meetsRow, opcodeRow, encode, ctl_encodeFrame, packCtl_masked, kindCode]

theorem ack (r : Bool) (n : Seq) (d a : Addr) (p : Bytes) : Statement (.ack r n d a p) := by
  simp [Statement, meetsRow, opcodeRow, encode, ctl_encodeFrame, packCtl_masked, kindCode]

theorem beacon (r : Bool) (n : Seq) (d a : Addr) (p : Bytes) : Statement (.beacon r n d a p) := by
  simp [Statement, meetsRow, opcodeRow, encode, ctl_encodeFrame, packCtl_masked, kindCode]

theorem send (h : Nat) (a : Addr) (p : Bytes) : Statement (.send h a p) := by
  simp [Statement, meetsRow, opcodeRow, encode, packWord_masked_op]

theorem recv (h : Nat) : Statement (.recv h) := by
  simp [Statement, meetsRow, opcodeRow, encode, packWord_masked_op]

theorem status (h : Nat) : Statement (.status h) := by
  simp [Statement, meetsRow, opcodeRow, encode, packWord_masked_op]

theorem cmdHelp (h : Nat) : Statement (.cmdHelp h) := by
  simp [Statement, meetsRow, opcodeRow, encode, packWord_masked_code]

theorem cmdDebug (h : Nat) (v : Word32) : Statement (.cmdDebug h v) := by
  simp [Statement, meetsRow, opcodeRow, encode, packWord_masked_code]

theorem cmdSlotsel (h : Nat) (v : Word32) : Statement (.cmdSlotsel h v) := by
  simp [Statement, meetsRow, opcodeRow, encode, packWord_masked_code]

theorem cmdBeacon (h : Nat) (v : Word32) : Statement (.cmdBeacon h v) := by
  simp [Statement, meetsRow, opcodeRow, encode, packWord_masked_code]

end TableRow

end Sys2Proof.Laws
end

