-- ==== Sys2Proof/Laws/Receive.lean ====
section
/-! SUPPORT. The sequence comparison (R232), the reads of the tracker after a first sighting (R234), the
sources a step leaves alone, the run of Drain (R235), and what a receive or host step can write. -/

namespace Sys2Proof.Machine

/-- Two states with the same fields are the same. -/
theorem state_ext {s t : State} (cfg : s.cfg = t.cfg) (cp : s.cp = t.cp) (tx : s.tx = t.tx) (oq : s.oq = t.oq)
    (rx : s.rx = t.rx) (iq : s.iq = t.iq) (hosts : s.hosts = t.hosts) (chan : s.chan = t.chan)
    (sched : s.sched = t.sched) (schedCount : s.schedCount = t.schedCount) (drawCount : s.drawCount = t.drawCount) :
    s = t := by
  cases s
  cases t
  simp_all

/-! ## Sequence comparison (R232) -/

theorem seqDistance_eq (n e : Seq) : seqDistance n e = (n.toNat + 4096 - e.toNat) % 4096 := by
  have hn := n.isLt
  have he := e.isLt
  simp only [seqDistance, BitVec.toNat_sub]
  omega

theorem seqDistance_eq_zero {n e : Seq} : seqDistance n e = 0 ↔ n = e := by
  have hn := n.isLt
  have he := e.isLt
  rw [seqDistance_eq, BitVec.toNat_eq]
  omega

theorem seqCompare_equal {n e : Seq} : seqCompare n e = .equal ↔ seqDistance n e = 0 := by
  unfold seqCompare
  split
  · simp_all
  · split <;> simp_all

theorem seqCompare_ahead {n e : Seq} : seqCompare n e = .ahead ↔ 1 ≤ seqDistance n e ∧ seqDistance n e ≤ 2047 := by
  unfold seqCompare
  split
  · simp_all
  · split
    · simp_all
      omega
    · simp_all

theorem seqCompare_behind {n e : Seq} : seqCompare n e = .behind ↔ 2048 ≤ seqDistance n e := by
  unfold seqCompare
  split
  · simp_all
  · split
    · simp_all
      omega
    · simp_all
      omega

/-! ## Sources left alone -/

theorem otherSourcesKept_trans {a : Addr} {s t u : State} (h : OtherSourcesKept a s t) (k : OtherSourcesKept a t u) :
    OtherSourcesKept a s u := by
  refine ⟨fun b hb => ?_, k.2.1.trans h.2.1, k.2.2.trans h.2.2⟩
  obtain ⟨h1, h2, h3⟩ := h.1 b hb
  obtain ⟨k1, k2, k3⟩ := k.1 b hb
  exact ⟨k1.trans h1, k2.trans h2, k3.trans h3⟩

theorem otherSourcesKept_of_rx {a : Addr} {s t : State} (hc : t.cfg = s.cfg) (h : t.rx = s.rx) :
    OtherSourcesKept a s t := by
  refine ⟨fun b _ => ⟨?_, ?_, ?_⟩, by rw [h], by rw [h]⟩ <;> simp [inSeenAt, inExpAt, windowAt, h, hc]

theorem otherSourcesKept_setWindow (a : Addr) (s : State) (w : Window) : OtherSourcesKept a s (setWindow a w s) :=
  ⟨fun _ hb => ⟨rfl, rfl, windowAt_setWindow_of_ne _ _ hb⟩, rfl, rfl⟩

theorem otherSourcesKept_setInExp (a : Addr) (s : State) (v : Seq) : OtherSourcesKept a s (setInExp a v s) :=
  ⟨fun _ hb => ⟨rfl, inExpAt_setInExp_of_ne _ _ hb, rfl⟩, rfl, rfl⟩

/-! ## First sighting (R234) -/

@[simp] theorem inSeenAt_sightSource (a : Addr) (s : State) : inSeenAt (sightSource a s) a = true := by
  rcases sightSource_cases a s with ⟨h, e⟩ | ⟨_, e⟩ <;> rw [e]
  · exact h
  · simp

@[simp] theorem inExpAt_sightSource (a : Addr) (s : State) : inExpAt (sightSource a s) a = expectedFrom s a := by
  rcases sightSource_cases a s with ⟨h, e⟩ | ⟨h, e⟩ <;> rw [e] <;> simp [expectedFrom, h]

@[simp] theorem windowAt_sightSource (a : Addr) (s : State) : windowAt (sightSource a s) a = windowFrom s a := by
  rcases sightSource_cases a s with ⟨h, e⟩ | ⟨h, e⟩ <;> rw [e] <;> simp [windowFrom, h]

theorem otherSourcesKept_sightSource (a : Addr) (s : State) : OtherSourcesKept a s (sightSource a s) := by
  rcases sightSource_cases a s with ⟨_, e⟩ | ⟨_, e⟩ <;> rw [e]
  · exact otherSourcesKept_of_rx rfl rfl
  · refine ⟨fun b hb => ⟨?_, ?_, ?_⟩, rfl, rfl⟩
    · simp [inSeenAt_setInSeen_of_ne _ _ hb]
    · simp [inExpAt_setInExp_of_ne _ _ hb]
    · simp [windowAt_setWindow_of_ne _ _ hb]

theorem enqueueAck_eq (a : Addr) (n : Seq) (s : State) : enqueueAck a n s = { s with oq := oqWithAck s a n } := by
  unfold enqueueAck oqWithAck
  split <;> rfl

/-! ## The run of Drain (R235) -/

/-- While slot 0 holds an entry and IQ has room, the loop delivers it and goes round. -/
theorem drainLoop_deliver {a : Addr} {s : State} {c : InEntry} {w : Window} (n : Nat) (hw : windowAt s a = some c :: w)
    (hf : iqFull s = false) :
    drainLoop a (n + 1) s
      = drainLoop a n (setInExp a (inExpAt s a + 1) (deliver c (setWindow a (w ++ [none]) s))) := by
  rw [drainLoop_succ, hw]
  simp [hf]

/-- A run of entries at the front of the window, for which IQ has room, is delivered. -/
theorem drainLoop_run (a : Addr) (run : List InEntry) (n : Nat) (s : State) (w : Window)
    (hw : windowAt s a = run.map some ++ w) (hl : s.iq.length + run.length ≤ s.cfg.iqCap) :
    ∃ t, drainLoop a (run.length + n) s = drainLoop a n t ∧ t = { s with iq := s.iq ++ run, rx := t.rx }
      ∧ windowAt t a = w ++ List.replicate run.length none
      ∧ inExpAt t a = inExpAt s a + BitVec.ofNat 12 run.length
      ∧ inSeenAt t a = inSeenAt s a ∧ OtherSourcesKept a s t := by
  induction run generalizing s w with
  | nil => exact ⟨s, by simp, by simp, by simpa using hw, by simp, rfl, otherSourcesKept_of_rx rfl rfl⟩
  | cons c run ih =>
    simp only [List.length_cons] at hl
    have hf : iqFull s = false := by
      simp only [iqFull, beq_eq_false_iff_ne]
      omega
    let s1 := setInExp a (inExpAt s a + 1) (deliver c (setWindow a (run.map some ++ w ++ [none]) s))
    have h1 : drainLoop a ((c :: run).length + n) s = drainLoop a (run.length + n) s1 := by
      rw [List.length_cons, show run.length + 1 + n = run.length + n + 1 by omega]
      exact drainLoop_deliver _ hw hf
    obtain ⟨t, e, f, g, h, i, j⟩ := ih s1 (w ++ [none]) (by simp [s1]) (by simp [s1]; omega)
    refine ⟨t, h1.trans e, ?_, ?_, ?_, ?_, ?_⟩
    · rw [f]
      simp [s1, deliver, setInExp, setWindow]
    · rw [g]
      simp [List.replicate_succ]
    · rw [h]
      apply BitVec.eq_of_toNat_eq
      simp [s1, BitVec.toNat_add]
      omega
    · rw [i]
      simp [s1]
    · exact otherSourcesKept_trans (otherSourcesKept_trans (otherSourcesKept_trans (otherSourcesKept_setWindow a s _)
        (otherSourcesKept_of_rx (t := deliver c (setWindow a (run.map some ++ w ++ [none]) s)) rfl rfl))
        (otherSourcesKept_setInExp _ _ _)) j

/-- Of the clock & policy registers, Drain writes LAST_EVENT at most. -/
theorem drainLoop_cp (a : Addr) (n : Nat) (s : State) :
    (drainLoop a n s).cp = { s.cp with lastEvent := (drainLoop a n s).cp.lastEvent } := by
  induction n generalizing s with
  | zero => rfl
  | succ n ih =>
    rw [drainLoop_succ]
    split
    · rfl
    · split
      · rfl
      · rw [ih]
        rfl

/-- However long it runs, Drain only appends to IQ and leaves IN_SEEN and the other sources. -/
theorem drainLoop_grows (a : Addr) (n : Nat) (s : State) :
    s.iq <+: (drainLoop a n s).iq ∧ inSeenAt (drainLoop a n s) a = inSeenAt s a
      ∧ OtherSourcesKept a s (drainLoop a n s) := by
  induction n generalizing s with
  | zero => exact ⟨List.prefix_rfl, rfl, otherSourcesKept_of_rx rfl rfl⟩
  | succ n ih =>
    rw [drainLoop_succ]
    split
    · exact ⟨by simp, by simp, otherSourcesKept_setWindow _ _ _⟩
    · split
      · exact ⟨by simp, by simp,
          otherSourcesKept_trans (otherSourcesKept_setWindow _ _ _) (otherSourcesKept_of_rx rfl rfl)⟩
      · rename_i c _ _
        obtain ⟨hq, hs, ho⟩ := ih (setInExp a (inExpAt s a + 1) (deliver c (setWindow a ((windowAt s a).tail ++ [none]) s)))
        refine ⟨List.IsPrefix.trans (by simp) hq, by rw [hs]; simp, ?_⟩
        exact otherSourcesKept_trans (otherSourcesKept_trans (otherSourcesKept_trans (otherSourcesKept_setWindow _ _ _)
          (otherSourcesKept_of_rx (t := deliver c (setWindow a ((windowAt s a).tail ++ [none]) s)) rfl rfl))
          (otherSourcesKept_setInExp _ _ _)) ho

/-! ## What a receive step and a host step can write (R72, R302) -/

/-- What a reception writes outside RX's own tables and IQ: the acked flag, OFFSET, LAST_EVENT, and an ACK
at the front of OQ. -/
structure ReceiveWrites (s t : State) : Prop where
  cfg       : t.cfg = s.cfg
  hosts     : t.hosts = s.hosts
  chan      : t.chan = { s.chan with rxq := t.chan.rxq }
  tx        : t.tx = s.tx ∨ t.tx = { s.tx with txh := { s.tx.txh with acked := true } }
  cp        : t.cp = { s.cp with offset := t.cp.offset, lastEvent := t.cp.lastEvent }
  oq        : t.oq = s.oq ∨ ∃ n a, occupancy s < s.cfg.oqCap + s.cfg.oqHeadroom
                ∧ t.oq = freshEntry (makeAck s.cfg n a) :: s.oq
  drawCount : t.drawCount = s.drawCount

theorem dispatch_writes (d : RxFrame) (s : State) : ReceiveWrites s (dispatch d s) := by
  rcases dispatch_cases d s with
    ⟨s', _, _, _, hb, e⟩ | ⟨_, e⟩ | ⟨s', _, _, _, hb, e⟩ | ⟨_, _, _, _, e⟩ | ⟨_, _, _, e⟩ | ⟨_, e⟩
  · rw [e]
    have hs : s' = setBcExp (d.seq + 1) s ∨ s' = s := by rcases bcastPass_some hb with h | h <;> simp [h.2]
    rcases absorbPayload_cases d.payload s' with h | ⟨_, _, h⟩ <;> rw [h] <;> rcases hs with rfl | rfl <;>
      constructor <;> simp
  · rw [e]
    constructor <;> simp [record]
  · rw [e]
    have hs : s' = setBcExp (d.seq + 1) s ∨ s' = s := by rcases bcastPass_some hb with h | h <;> simp [h.2]
    rcases hs with rfl | rfl <;> constructor <;> simp
  · rw [e]
    constructor <;> simp [markAcked]
  · rw [e]
    have occ : occupancy (sightSource (dataEntry d).src s) = occupancy s := by simp [occupancy]
    rcases trackSequence_cases (dataEntry d) s with ⟨_, e⟩ | ⟨_, e⟩ | ⟨_, e⟩ <;> rw [e]
    · constructor
      · simp [acceptInOrder]
      · simp [acceptInOrder]
      · simp [acceptInOrder]
      · exact .inl (by simp [acceptInOrder])
      · simp only [acceptInOrder, drain]
        rw [drainLoop_cp]
        simp
      · simp only [acceptInOrder, drain_oq, setInExp_oq]
        rcases enqueueAck_cases (dataEntry d).src (dataEntry d).seq
          (deliver (dataEntry d) (sightSource (dataEntry d).src s)) with ⟨h, e⟩ | ⟨_, e⟩
        · right
          rw [e]
          exact ⟨(dataEntry d).seq, (dataEntry d).src, by simpa [occupancy] using h, by simp⟩
        · left
          rw [e]
          simp
      · simp [acceptInOrder]
    · rcases bufferAhead_cases (dataEntry d) (sightSource (dataEntry d).src s) with ⟨_, e⟩ | ⟨_, e⟩ <;> rw [e] <;>
        constructor <;> simp [record]
    · rcases enqueueAck_cases (dataEntry d).src (dataEntry d).seq (sightSource (dataEntry d).src s) with
        ⟨h, e⟩ | ⟨_, e⟩ <;> rw [e]
      · constructor <;> simp
        exact ⟨by rw [← occ]; simpa using h, _, _, rfl⟩
      · constructor <;> simp
  · rw [e]
    constructor <;> simp

/-- A dispatch leaves the channel port as it is. -/
theorem dispatch_chan (d : RxFrame) (s : State) : (dispatch d s).chan = s.chan := by
  rcases dispatch_cases d s with
    ⟨s', _, _, _, hb, e⟩ | ⟨_, e⟩ | ⟨s', _, _, _, hb, e⟩ | ⟨_, _, _, _, e⟩ | ⟨_, _, _, e⟩ | ⟨_, e⟩
  · rw [e]
    have hs : s' = setBcExp (d.seq + 1) s ∨ s' = s := by rcases bcastPass_some hb with h | h <;> simp [h.2]
    rcases absorbPayload_cases d.payload s' with h | ⟨_, _, h⟩ <;> rw [h] <;> rcases hs with rfl | rfl <;> simp
  · simp [e]
  · rw [e]
    have hs : s' = setBcExp (d.seq + 1) s ∨ s' = s := by rcases bcastPass_some hb with h | h <;> simp [h.2]
    rcases hs with rfl | rfl <;> simp
  · simp [e]
  · rw [e]
    rcases trackSequence_cases (dataEntry d) s with ⟨_, e⟩ | ⟨_, e⟩ | ⟨_, e⟩ <;> rw [e]
    · simp [acceptInOrder]
    · rcases bufferAhead_cases (dataEntry d) (sightSource (dataEntry d).src s) with ⟨_, e⟩ | ⟨_, e⟩ <;> simp [e]
    · simp
  · rw [e]

theorem rxStep_writes {s t : State} (h : rxStep s = .next t) : ReceiveWrites s t := by
  unfold rxStep at h
  split at h
  · cases h
    constructor <;> simp
  · rename_i b r hq
    set u : State := { s with chan := { s.chan with rxq := r } } with hu
    have key (d : RxFrame) (hd : t = dispatch d u) : ReceiveWrites s t := by
      have hw := dispatch_writes d u
      rw [← hd] at hw
      exact ⟨hw.cfg, hw.hosts, by rw [hw.chan], hw.tx, hw.cp, hw.oq, hw.drawCount⟩
    unfold rxFrame at h
    split at h
    · rename_i i hi
      unfold decodeFrame at hi
      split at hi
      · cases hi
      · unfold instrOfFrame at hi
        split at hi <;> cases hi <;>
          (simp only [exec, execData, execAck, execBeacon] at h; cases h; exact key _ rfl)
    · cases h
      unfold rxReject
      split
      · constructor <;> simp [dropCorrupt, record, hu]
      · exact key _ rfl
      · constructor <;> simp [hu]

/-- What a host step leaves: the transmit unit, the channel, CW and BACKOFF; and what it does to OQ. -/
structure HostWrites (s t : State) : Prop where
  cfg       : t.cfg = s.cfg
  tx        : t.tx = s.tx
  chan      : t.chan = s.chan
  drawCount : t.drawCount = s.drawCount
  cw        : t.cp.cw = s.cp.cw
  backoff   : t.cp.backoff = s.cp.backoff
  oq        : t.oq = s.oq ∨ ∃ a p, occupancy s < s.cfg.oqCap ∧ p.length ≤ s.cfg.maxPayload
                ∧ t.oq = s.oq ++ [freshEntry (sendFrame s a p)]

theorem hostCommand_writes {i : Instr} {h : Nat} {k : HostCommand} (hd : decodeHost h k = .ok i) {s t : State}
    (he : exec i s = .next t) : HostWrites s t := by
  unfold decodeHost at hd
  repeat' split at hd
  all_goals cases hd
  all_goals simp only [exec, execSend, execRecv, execStatus, execCmdHelp, execCmdDebug, execCmdSlotsel,
    execCmdBeacon, setBeacons] at he
  all_goals cases he
  · split
    · constructor <;> simp [rejectCommand]
    · split
      · constructor <;> simp [rejectCommand]
      · rename_i hp ho
        constructor <;> simp [acceptSend]
        exact ⟨by omega, cwAddr k.word, k.payload, by omega, rfl⟩
  · repeat' split
    all_goals constructor <;> simp
  all_goals (try split)
  all_goals constructor <;> simp

theorem hostStep_writes {h : Nat} {k : HostCommand} {s t : State} (he : hostStep h k s = .next t) : HostWrites s t := by
  rcases hostStep_cases h k s with ⟨_, e⟩ | ⟨_, i, hd, e⟩ | ⟨_, _, e⟩ <;> rw [e] at he
  · cases he
    constructor <;> simp
  · exact hostCommand_writes hd he
  · cases he
    constructor <;> simp [illegalWord, rejectCommand]

theorem completeStep_writes {h : Nat} {s t : State} (he : completeStep h s = .next t) : HostWrites s t := by
  unfold completeStep at he
  split at he
  · exact hostCommand_writes (h := h) (k := { word := 0x02000000#32 }) (i := .recv h) rfl he
  · cases he
    constructor <;> simp

end Sys2Proof.Machine
end

