-- ==== Sys2Proof/Laws/Transmit.lean ====
section
/-! SUPPORT. What a transmit step can write (R72). -/

namespace Sys2Proof.Machine

/-- What a TX step leaves: the parameters, IQ, the host agents, the tracker, and of the channel port all but
CHAN_TXLOG. -/
structure TransmitWrites (s t : State) : Prop where
  cfg   : t.cfg = s.cfg
  iq    : t.iq = s.iq
  hosts : t.hosts = s.hosts
  rx    : t.rx = { s.rx with outSeq := t.rx.outSeq }
  chan  : t.chan = { s.chan with txlog := t.chan.txlog }

theorem insertBeacon_rx (ts : Bytes) (s : State) :
    (insertBeacon ts s).rx = { s.rx with outSeq := (insertBeacon ts s).rx.outSeq } := by
  rcases insertBeacon_cases ts s with ⟨_, e⟩ | ⟨_, e⟩ <;> rw [e]
  simp

theorem beaconCheck_rx (s : State) : (beaconCheck s).rx = { s.rx with outSeq := (beaconCheck s).rx.outSeq } := by
  rcases beaconCheck_cases s with ⟨_, e⟩ | ⟨_, e⟩ <;> rw [e]
  rw [insertBeacon_rx]
  simp

theorem txIdle_writes (s : State) : TransmitWrites s (txIdle s) := by
  have hr := beaconCheck_rx s
  unfold txIdle
  rcases serveQueue_cases (beaconCheck s) with ⟨_, e⟩ | ⟨x, q, _, _, e⟩ | ⟨x, q, _, _, _, e⟩ | ⟨x, q, _, _, _, e⟩ <;>
    rw [e] <;> constructor <;> first | (simp; done) | simpa using hr

/-- Every TX step leaves what `TransmitWrites` names. -/
theorem txStep_writes {s t : State} (h : txStep s = .next t) : TransmitWrites s t := by
  rcases txStep_next h with
    ⟨_, rfl⟩ | ⟨_, rfl⟩ | ⟨_, rfl⟩ | ⟨_, rfl⟩ | ⟨_, rfl⟩ | ⟨_, rfl⟩ | ⟨_, rfl⟩
  · exact txIdle_writes s
  · unfold txDifsWait enterBackoff
    repeat' split
    all_goals constructor <;> simp
  · unfold txBackoffSlot enterBackoff
    repeat' split
    all_goals constructor <;> simp
  · unfold txTransmit fireAndForget
    dsimp only
    repeat' split
    all_goals constructor <;> simp
  · unfold txAwaitAck
    split
    · constructor <;> simp [headDelivered]
    · split
      · constructor <;> simp [headFailed]
      · split
        · constructor <;> simp [headTimedOut]
        · rcases serveAckWhileWaiting_cases s with e | ⟨x, q, _, _, e⟩ <;> rw [e] <;> constructor <;> simp
  · unfold txWaitChannelIdle
    split <;> constructor <;> simp
  · unfold txSendAckSifs
    repeat' split
    all_goals constructor <;> simp

end Sys2Proof.Machine
end

