-- ==== Sys2Proof/Tests/Slice0.lean ====
section
/-! SUPPORT. Tests: the checks of WellFormed refuse an ill-formed term each; words and byte strings written
out from 30_encoding.md decode to what they stand for; single steps of 95_test_vectors.md (named V<n>); and
for every obligation with hypotheses a concrete instance that meets them. Expected values come from the
spec's tables and vectors. -/

namespace Sys2Proof.Tests

open Sys2Proof.Machine

-- One theorem at a time: elaborated side by side, the kernel's evaluations wait on one another in too many threads.
set_option Elab.async false

/-! ## Helpers -/

/-- The outcome is a next state with a property. -/
def after (o : Host.Outcome State Fault Refusal) (p : State → Bool) : Bool :=
  match o with
  | .next t    => p t
  | .fault _   => false
  | .refused _ => false

theorem next_of_after {o : Host.Outcome State Fault Refusal} (h : after o (fun _ => true) = true) :
    ∃ t, o = .next t := by
  cases o with
  | next t    => exact ⟨t, rfl⟩
  | fault f   => cases h
  | refused r => cases h

/-- The reference configuration for a station address (conventions of 95_test_vectors.md). -/
def station (a : Addr) : Config := { Config.reference with myAddr := a }

/-- Station `a` right after reset at a clock value, with FIXED_SLOT = 1 so that draws are determined. -/
def base (a : Addr) (clock : Time) : State :=
  let s := State.resetWith (station a) clock false
  { s with cp := { s.cp with fixedSlot := true } }

/-- A legal configuration with short payloads, queues and windows, at address 2. -/
def tiny : Config :=
  { Config.reference with
    myAddr := 2#16, maxPayload := 8, maxFrame := 18, oqCap := 1, oqHeadroom := 1, iqCap := 2, winSlots := 2 }

/-- A station of that configuration right after reset. -/
def small : State := State.resetWith tiny 1000#64 false

/-- D of 95_test_vectors.md section 2.3: DATA(0, 0, 0x0002, 0x0001, "A"). -/
def dFrame : Frame := ⟨.data, false, 0#12, 2#16, 1#16, [0x41#8]⟩

/-- DATA to 0x0003. -/
def d3Frame : Frame := ⟨.data, false, 0#12, 3#16, 1#16, []⟩

/-- ACK(0, n, dest, 0x0001). -/
def ackFrame (n : Seq) (dest : Addr) : Frame := ⟨.ack, false, n, dest, 1#16, []⟩

/-- The byte string of V3, BEACON(0, 5, 0xFFFF, 0x0003, BE64(5000)). -/
def v3 : Bytes :=
  [0x40, 0x05, 0xFF, 0xFF, 0x00, 0x03, 0, 0, 0, 0, 0, 0, 0x13, 0x88, 0x1A, 0x0E, 0xA9, 0xAF]

/-- The byte string of V5, D encoded. -/
def v5 : Bytes := [0, 0, 0, 2, 0, 1, 0x41, 0x2F, 0xA5, 0x57, 0xB2]

/-- Station 1 with D in flight in a state of TX. -/
def sending (x : TxState) (clock deadline : Time) (busy need : Bool) (backoff : BitVec 16) : State :=
  let s := base 1#16 clock
  { s with
    cp := { s.cp with backoff := backoff }
    tx := { s.tx with
            state := x, txhValid := true, txh := freshEntry dFrame, deadline := deadline, needBackoff := need }
    chan := { s.chan with busy := busy } }

/-- Station 1 waiting for D's ACK after some retries. -/
def waiting (clock : Time) (cw : BitVec 16) (retries : BitVec 8) (acked : Bool) (q : List OutEntry) : State :=
  let s := sending .awaitAck clock 0#64 false true 0#16
  { s with
    cp := { s.cp with cw := cw, ackWaitStart := 1800#64 }
    tx := { s.tx with txh := ⟨{ dFrame with retry := retries != 0#8 }, acked, retries⟩ }
    oq := q }

/-! ## WellFormed refuses what is ill formed (R8, R11, R44) -/

theorem test_config_reference_ok : Config.reference.ok = true := by decide
theorem test_config_tiny_ok : tiny.ok = true := by decide
theorem test_config_refuses_broadcast_address : ({ tiny with myAddr := 0xFFFF#16 } : Config).ok = false := by decide
theorem test_config_refuses_no_outbound_queue : ({ tiny with oqCap := 0 } : Config).ok = false := by decide
theorem test_config_refuses_no_inbound_queue : ({ tiny with iqCap := 0 } : Config).ok = false := by decide
theorem test_config_refuses_short_window : ({ tiny with winSlots := 1 } : Config).ok = false := by decide
theorem test_config_refuses_zero_window_cap : ({ tiny with cwMax := 0 } : Config).ok = false := by decide
theorem test_config_refuses_wide_window_cap : ({ tiny with cwMax := 65536 } : Config).ok = false := by decide
theorem test_config_refuses_retry_limit : ({ tiny with retryLimit := 256 } : Config).ok = false := by decide
theorem test_config_refuses_sifs_not_below_difs : ({ tiny with sifsTime := 500#64 } : Config).ok = false := by decide
theorem test_config_refuses_zero_slot : ({ tiny with slotTime := 0#64 } : Config).ok = false := by decide
theorem test_config_refuses_zero_boundary : ({ tiny with slotBoundary := 0#64 } : Config).ok = false := by decide
theorem test_config_refuses_large_payload :
    ({ tiny with maxPayload := 2039, maxFrame := 2049 } : Config).ok = false := by decide
theorem test_config_refuses_frame_size : ({ tiny with maxFrame := 19 } : Config).ok = false := by decide
theorem test_config_refuses_no_host : ({ tiny with hostAgents := 0 } : Config).ok = false := by decide

/-- A payload one byte too long is no frame, of any kind. -/
theorem test_wellFormed_refuses_long_payload :
    (Instr.data false 0 1 2 (List.replicate 9 0)).wellFormed tiny = false
    ∧ (Instr.ack false 0 1 2 (List.replicate 9 0)).wellFormed tiny = false
    ∧ (Instr.beacon false 0 1 2 (List.replicate 9 0)).wellFormed tiny = false
    ∧ (Instr.data false 0 1 2 (List.replicate 8 0)).wellFormed tiny = true := by decide

/-- Agents 0 and HOST_AGENTS + 1 issue no command. -/
theorem test_wellFormed_refuses_absent_agent :
    (Instr.send 0 1 []).wellFormed tiny = false ∧ (Instr.recv 2).wellFormed tiny = false
    ∧ (Instr.status 0).wellFormed tiny = false ∧ (Instr.cmdHelp 2).wellFormed tiny = false
    ∧ (Instr.cmdDebug 0 1).wellFormed tiny = false ∧ (Instr.cmdSlotsel 2 1).wellFormed tiny = false
    ∧ (Instr.cmdBeacon 0 1).wellFormed tiny = false ∧ (Instr.cmdBeacon 1 1).wellFormed tiny = true := by decide

/-! ## Decoding: words and byte strings written out from R81 to R83, R88, R89 -/

/-- CTL 0x1ABC: kind 000, retry 1, seq 0xABC (V25). -/
theorem test_decode_data : decodeTableWord 16 0x1ABC = some (.data true 0xABC#12 0#16 0#16 []) := by decide +kernel
theorem test_decode_ack : decodeTableWord 16 0x2001 = some (.ack false 1#12 0#16 0#16 []) := by decide +kernel
theorem test_decode_beacon : decodeTableWord 16 0x5800 = some (.beacon true 0x800#12 0#16 0#16 []) := by
  decide +kernel
/-- Kind codes 3 and 7 are reserved (R83). -/
theorem test_decode_reserved_kinds :
    decodeTableWord 16 0x7FFF = none ∧ decodeTableWord 16 0xEFFF = none := by decide +kernel
theorem test_decode_send : decodeTableWord 32 0x0100FFFF = some (.send 1 0xFFFF#16 []) := by decide
theorem test_decode_recv : decodeTableWord 32 0x02000000 = some (.recv 1) := by decide
theorem test_decode_status : decodeTableWord 32 0x03FF1234 = some (.status 1) := by decide
theorem test_decode_cmdHelp : decodeTableWord 32 0x04000001 = some (.cmdHelp 1) := by decide
theorem test_decode_cmdDebug : decodeTableWord 32 0x0401FFFF = some (.cmdDebug 1 0#32) := by decide
theorem test_decode_cmdSlotsel : decodeTableWord 32 0x04020000 = some (.cmdSlotsel 1 0#32) := by decide
theorem test_decode_cmdBeacon : decodeTableWord 32 0x04038000 = some (.cmdBeacon 1 0#32) := by decide
/-- OP 0 and 5 and CMD code 4 are illegal (R91). -/
theorem test_decode_illegal :
    decodeTableWord 32 0x00000000 = none ∧ decodeTableWord 32 0x05000000 = none
    ∧ decodeTableWord 32 0x04040000 = none := by decide
/-- `CMD.BEACON -1` carries VALUE 0xFFFFFFFF (R94). -/
theorem test_decode_value :
    (decodeHost 1 ⟨0x04030000#32, 0xFFFFFFFF#32, []⟩).toOption = some (.cmdBeacon 1 0xFFFFFFFF#32) := by decide
/-- The check values of R111. -/
theorem test_crc_check_values :
    crc32 [0x31, 0x32, 0x33, 0x34, 0x35, 0x36, 0x37, 0x38, 0x39] = 0xCBF43926#32 ∧ crc32 [] = 0#32 := by
  decide +kernel
/-- V1, V3, V5, V6: the encoder writes the bytes of the table. -/
theorem test_encode_vectors :
    encodeFrame ⟨.data, false, 0, 2, 1, []⟩ = [0, 0, 0, 2, 0, 1, 0xC5, 0x41, 0x45, 0x5B]
    ∧ encodeFrame ⟨.beacon, false, 5, 0xFFFF, 3, [0, 0, 0, 0, 0, 0, 0x13, 0x88]⟩ = v3
    ∧ encodeFrame dFrame = v5
    ∧ encodeFrame { dFrame with retry := true } = [0x10, 0, 0, 2, 0, 1, 0x41, 0x48, 0x7B, 0xCB, 0x7C] := by
  decide +kernel
/-- V14, V15: a reserved kind with a good checksum is Ok. -/
theorem test_decode_other :
    decodeBytes Config.reference [0x60, 0x05, 0, 2, 0, 1, 0x05, 0x55, 0xC5, 0x71]
        = .ok ⟨.other 3#3, false, 5, 2, 1, []⟩
    ∧ decodeBytes Config.reference [0xEF, 0xFF, 0, 2, 0, 1, 0x5A, 0xB4, 0xEC, 0xE3, 0x6C]
        = .ok ⟨.other 7#3, false, 0xFFF, 2, 1, [0x5A]⟩ := by decide +kernel
/-- V16, V17, V20, V21, V22: Corrupt. -/
theorem test_decode_corrupt :
    decodeBytes Config.reference [0, 0, 0, 2, 0, 1, 0xC5, 0x41, 0x45] = .corrupt
    ∧ decodeBytes Config.reference (List.replicate 10 0) = .corrupt
    ∧ decodeBytes Config.reference [0x80, 0, 0, 2, 0, 1, 0xC5, 0x41, 0x45, 0x5B] = .corrupt
    ∧ decodeBytes Config.reference [0, 0, 0, 2, 0, 1, 0xC5, 0x41, 0x45, 0x5A] = .corrupt
    ∧ decodeBytes Config.reference [0, 0, 0, 2, 0, 1, 0x40, 0x2F, 0xA5, 0x57, 0xB2] = .corrupt := by decide +kernel

/-! ## Where the host places an instruction -/

/-- The step after `withFetchWord` runs the row's instruction, here STATUS, whose RESULT is SUCCESS. -/
theorem test_withFetchWord_status :
    after (step (State.reset.withFetchWord 32 0x03000000)) (fun t => (hostAt t 1).result == 1#32) = true := by
  decide +kernel
/-- A frame row is received: DATA to address 0 is for another station. -/
theorem test_withFetchWord_data :
    after (step (State.reset.withFetchWord 16 0x0000)) (fun t => t == State.reset) = true := by decide +kernel

/-! ## Host commands (R273 to R288, worked examples) -/

theorem test_send_queues :
    after (exec (.send 1 2 [0x41]) (base 1 0)) (fun t =>
      t.oq == [freshEntry dFrame] && outSeqAt t 2 == 1 && (hostAt t 1).result == 1 && t.cp.lastEvent == 1) = true := by
  decide +kernel
theorem test_send_oversized :
    after (exec (.send 1 2 (List.replicate 9 0)) small) (fun t =>
      t.cp.lastEvent == 6 && (hostAt t 1).result == 0 && t.oq.isEmpty) = true := by decide +kernel
theorem test_recv_completes :
    after (exec (.recv 1) { setHost 1 ⟨true, 7, 0, []⟩ (base 2 0) with iq := [⟨1, 0, .data, [0x41]⟩] }) (fun t =>
      hostAt t 1 == ⟨false, 1, 1, [0x41]⟩ && t.iq.isEmpty) = true := by decide +kernel
theorem test_recv_blocks :
    after (exec (.recv 1) (base 2 0)) (fun t => (hostAt t 1).blocked) = true := by decide +kernel
theorem test_status_reads_delivered :
    after (exec (.status 1) (record .txDelivered (base 1 0))) (fun t =>
      (hostAt t 1).result == 4 && t.cp.lastEvent == 4) = true := by decide +kernel
theorem test_help_returns_zero :
    after (exec (.cmdHelp 1) (setResult 1 9 (base 1 0))) (fun t => t == base 1 0) = true := by decide +kernel
theorem test_debug_stores :
    after (exec (.cmdDebug 1 1) (base 1 0)) (fun t => t.cp.debug == 1) = true := by decide +kernel
theorem test_slotsel_one_is_fixed :
    after (exec (.cmdSlotsel 1 1) State.reset) (fun t => t.cp.fixedSlot) = true := by decide +kernel
theorem test_slotsel_zero_is_random :
    after (exec (.cmdSlotsel 1 0) (base 1 0)) (fun t => !t.cp.fixedSlot) = true := by decide +kernel
theorem test_beacon_three :
    after (exec (.cmdBeacon 1 3) (base 1 0)) (fun t => t.cp.beaconEn && t.cp.beaconInterval == 3000) = true := by
  decide +kernel
theorem test_beacon_minus_one :
    after (exec (.cmdBeacon 1 0xFFFFFFFF) { base 1 0 with cp := { (base 1 0).cp with beaconEn := true, beaconInterval := 7 } })
      (fun t => !t.cp.beaconEn && t.cp.beaconInterval == 7) = true := by decide +kernel
theorem test_illegal_word :
    after (hostStep 1 { word := 0x05000000 } (base 1 0)) (fun t =>
      t.cp.lastEvent == 9 && (hostAt t 1).result == 0) = true := by decide +kernel

/-! ## Reception (V80 to V94) -/

/-- V90, then V91: delivered and ACKed, then only ACKed again. -/
theorem test_v90_v91_data_in_order_then_again :
    after (exec (.data false 0 2 1 [0x41]) (base 2 1000)) (fun t =>
      inSeenAt t 1 && inExpAt t 1 == 1 && t.iq == [⟨1, 0, .data, [0x41]⟩]
        && t.oq == [freshEntry ⟨.ack, false, 0, 1, 2, []⟩]
        && after (exec (.data false 0 2 1 [0x41]) { t with oq := [] }) (fun u =>
             u.iq == t.iq && inExpAt u 1 == 1 && u.oq == t.oq && u.cp.lastEvent == 1)) = true := by decide +kernel
/-- The worked example of R236: E = 2, n = 3 is stored in slot 0, n = 11 is dropped. -/
theorem test_data_ahead_is_stored :
    after (exec (.data false 3 2 1 []) (setInExp 1 2 (setInSeen 1 true (base 2 0)))) (fun t =>
      (windowAt t 1).head? == some (some ⟨1, 3, .data, []⟩) && t.cp.lastEvent == 2 && t.oq.isEmpty && t.iq.isEmpty
        && after (exec (.data false 11 2 1 []) t) (fun u => windowAt u 1 == windowAt t 1)) = true := by decide +kernel
/-- The worked example of R235: 3 and 4 are drained, 5 is missing, slot 0 then holds 6. -/
theorem test_drain_to_gap :
    let e (n : Seq) : Option InEntry := some ⟨1, n, .data, []⟩
    let s := setWindow 1 [e 3, e 4, none, e 6, none, none, none, none] (setInExp 1 3 (base 2 0))
    (inExpAt (drain 1 s) 1 == 5 && (drain 1 s).iq.map (·.seq) == [3, 4]
      && windowAt (drain 1 s) 1 == e 6 :: List.replicate 7 none) = true := by decide +kernel
/-- V84, V84a, V84b: only the ACK of the in-flight frame marks it. -/
theorem test_v84_ack_match :
    after (exec (.ack false 0 1 2 []) (sending .transmit 0 0 false false 0)) (·.tx.txh.acked) = true
    ∧ after (exec (.ack false 1 1 2 []) (sending .transmit 0 0 false false 0)) (!·.tx.txh.acked) = true
    ∧ after (exec (.ack false 0 1 3 []) (sending .transmit 0 0 false false 0)) (!·.tx.txh.acked) = true := by
  decide +kernel
/-- V81 through the whole RX step: BC_EXP 6, OFFSET 4000. -/
theorem test_v81_beacon_absorbed :
    after (step { base 2 1000 with
        cp := { (base 2 1000).cp with beaconEn := true }, rx := { (base 2 1000).rx with bcExp := 5 }
        chan := { (base 2 1000).chan with rxq := [v3] }, sched := [.rx] })
      (fun t => t.rx.bcExp == 6 && t.cp.offset == 4000 && now t == 5000 && t.chan.rxq.isEmpty) = true := by
  decide +kernel
/-- V81a: with beacons disabled the beacon is ignored and the filter not run. -/
theorem test_v81a_beacon_ignored :
    after (exec (.beacon false 0 0xFFFF 3 [0, 0, 0, 0, 0, 0, 0x13, 0x88]) (base 2 1000)) (fun t => t == base 2 1000) = true := by
  decide +kernel

/-! ## Transmission (V61 to V77) -/

theorem test_v61_ack_first :
    after (txStep { base 1 1000 with oq := [freshEntry (ackFrame 0 2)] }) (fun t =>
      t.tx.state == .sendAckSifs && t.tx.ackr == ackFrame 0 2 && t.tx.ackrValid && !t.tx.ackReturn && t.oq.isEmpty) = true := by
  decide +kernel
theorem test_v62_load_idle :
    after (txStep { base 1 1250 with oq := [freshEntry dFrame] }) (fun t =>
      t.tx.state == .difsWait && t.tx.deadline == 1800 && !t.tx.needBackoff && t.tx.txh == freshEntry dFrame) = true := by
  decide +kernel
theorem test_v64_beacon_due :
    let s := setOutSeq 0xFFFF 5 (base 3 5000)
    after (txStep { s with cp := { s.cp with beaconEn := true, beaconInterval := 3000 } }) (fun t =>
      t.cp.lastBeacon == 5000 && outSeqAt t 0xFFFF == 6 && encodeFrame t.tx.txh.frame == v3
        && t.tx.state == .difsWait && t.tx.deadline == 5600) = true := by decide +kernel
/-- V65: the old beacon is replaced and the new one loaded; DATA stays queued. -/
theorem test_v65_beacon_coalesced :
    let s := base 1 5000
    after (txStep { s with
        cp := { s.cp with beaconEn := true, beaconInterval := 3000 }
        oq := [freshEntry ⟨.beacon, false, 9, 0xFFFF, 1, []⟩, freshEntry dFrame] })
      (fun t => t.oq == [freshEntry dFrame] && t.tx.txh.frame.kind == .beacon && t.tx.txh.frame.seq == 0
        && t.tx.txh.frame.payload == [0, 0, 0, 0, 0, 0, 0x13, 0x88]) = true := by decide +kernel
/-- V66: with eight frames queued the beacon is lost, LAST_BEACON still moves and the front is served. -/
theorem test_v66_beacon_lost :
    let s := base 1 5000
    after (txStep { s with
        cp := { s.cp with beaconEn := true, beaconInterval := 3000 }, oq := List.replicate 8 (freshEntry dFrame) })
      (fun t => t.cp.lastBeacon == 5000 && outSeqAt t 0xFFFF == 0 && t.tx.txh == freshEntry dFrame
        && t.oq == List.replicate 7 (freshEntry dFrame) && t.tx.state == .difsWait) = true := by decide +kernel
theorem test_v67e_backoff_entry :
    after (txStep (sending .difsWait 1800 1800 false true 2)) (fun t =>
      t.tx.state == .backoffSlot && t.tx.deadline == 2000) = true := by decide +kernel
theorem test_v69b_last_slot :
    after (txStep (sending .backoffSlot 2200 2200 false true 1)) (fun t =>
      t.tx.state == .transmit && t.cp.backoff == 0) = true := by decide +kernel
theorem test_v70a_transmit_unicast :
    after (txStep (sending .transmit 1800 0 false false 0)) (fun t =>
      t.chan.txlog == [v5] && t.cp.ackWaitStart == 1800 && t.tx.state == .awaitAck) = true := by decide +kernel
theorem test_v71_delivered :
    after (txStep (waiting 1900 4 2 true [])) (fun t =>
      t.cp.lastEvent == 4 && !t.tx.txhValid && t.cp.cw == 1 && t.cp.backoff == 1 && t.tx.state == .idle) = true := by
  decide +kernel
/-- V72 and V77: the limit is tested before the timeout. -/
theorem test_v72_v77_retry_limit :
    after (txStep (waiting 9999 31 5 false [freshEntry dFrame, freshEntry d3Frame])) (fun t =>
      t.cp.lastEvent == 5 && t.oq == [freshEntry d3Frame] && outSeqAt t 2 == 0 && t.cp.cw == 1 && t.tx.state == .idle)
      = true := by decide +kernel
theorem test_v73a_timeout_caps_window :
    after (txStep (waiting 3800 16 4 false [])) (fun t =>
      t.cp.cw == 31 && t.cp.backoff == 31 && t.tx.txh.retries == 5 && t.tx.txh.frame.retry
        && t.tx.state == .waitChannelIdle) = true := by decide +kernel
theorem test_v76d_ack_ignores_carrier :
    let s := base 1 2100
    after (txStep { s with
        chan := { s.chan with busy := true }
        tx := { s.tx with state := .sendAckSifs, ackPhase := true, ackrValid := true, deadline := 2100
                          ackr := ⟨.ack, false, 0, 1, 2, []⟩ } })
      (fun t => t.chan.txlog == [[0x20, 0, 0, 1, 0, 2, 0x59, 0xA2, 0xAF, 0x8E]] && !t.tx.ackrValid && t.tx.state == .idle)
      = true := by decide +kernel
/-- V41 to V44. -/
theorem test_v41_to_v44_backoff_base :
    [1250#64, 1300#64, 1301#64, 0#64, 1000#64, 1499#64].map (fun c => roundedBackoffBase (base 1 c))
      = [550#64, 500#64, 699#64, 600#64, 600#64, 501#64] := by decide +kernel
/-- R33: TX_STATE 7 is refused; a configuration outside R8 is refused (93_implementation_defined.md row 28). -/
theorem test_refusals :
    (match txStep { base 1 0 with tx := { (base 1 0).tx with state := .unused } } with
     | .refused r => r == .unusedTxState
     | _          => false) = true
    ∧ (match step { small with cfg := { tiny with iqCap := 0 } } with
       | .refused r => r == .illegalConfiguration
       | _          => false) = true := by decide +kernel

/-! ## Witnesses: for each obligation with hypotheses, an instance that meets them -/

/-- The sample frame of a kind whose encoding the codec's witnesses use, with payload at MAX_PAYLOAD. -/
def fullFrame : Frame := ⟨.data, true, 4095#12, 2#16, 1#16, List.replicate 8 0xFF#8⟩

/-- A received frame value. -/
def got (k : RxKind) (n : Seq) (dest src : Addr) : RxFrame := ⟨k, false, n, dest, src, []⟩

/-- An inbound entry from source 1. -/
def entry (n : Seq) : InEntry := ⟨1#16, n, .data, []⟩

/-- A station of the small configuration with IQ at its capacity. -/
def smallFull : State := { small with iq := [entry 0, entry 1] }

/-- A station that has seen source 1, expects `e` from it and holds a window. -/
def tracking (e : Seq) (w : Window) (q : List InEntry) : State :=
  { setWindow 1#16 w (setInExp 1#16 e (setInSeen 1#16 true small)) with iq := q }

/-- Station 1 in IDLE with a queue. -/
def idling (q : List OutEntry) (busy : Bool) : State :=
  let s := base 1#16 1000#64
  { s with oq := q, chan := { s.chan with busy := busy } }

/-- Station 1 in SEND_ACK_SIFS. -/
def acking (phase busy : Bool) (clock : Time) : State :=
  let s := base 1#16 clock
  { s with
    tx := { s.tx with
            state := .sendAckSifs, ackrValid := true, ackr := ackFrame 0#12 2#16, ackPhase := phase
            deadline := 2100#64 }
    chan := { s.chan with busy := busy } }

/-- A beacon due in IDLE, over a queue. -/
def dueBeacon (q : List OutEntry) (busy : Bool) : State :=
  let s := idling q busy
  { s with cp := { s.cp with beaconEn := true, beaconInterval := 1000#64 } }

/-- The frames other than beacons that the queue of a state holds. -/
def keptFrames (s : State) : List OutEntry := s.oq.filter fun e => e.frame.kind != .beacon

/-- A state that the next step takes from: waiting for an ACK after one timeout, TX picked. -/
def running : State :=
  { waiting 1900#64 2#16 1#8 false [freshEntry (ackFrame 3#12 2#16), freshEntry d3Frame] with
    sched := [.tx]
    chan := ⟨1900#64, false, [], [encodeFrame dFrame], 0#64⟩ }

/-- A station that holds seq 6 from source 1, expects 5, and receives 5. -/
def reassembling : State :=
  { tracking 5 [some (entry 6), none] [] with
    chan := ⟨1000#64, false, [encodeFrame ⟨.data, false, 5, 2, 1, []⟩], [], 0#64⟩, sched := [.rx] }

theorem witness_DecodeInvertsEncodeOnFrames :
    tiny.maxFrame = tiny.maxPayload + 10 ∧ fullFrame.payload.length = tiny.maxPayload := by decide
theorem witness_DecodeInvertsEncodeOnInstructions :
    tiny.maxFrame = tiny.maxPayload + 10
    ∧ (Instr.data true 4095 2 1 (List.replicate 8 0xFF)).wellFormed tiny = true
    ∧ (Instr.cmdBeacon 1 0xFFFFFFFF).wellFormed tiny = true := by decide
/-- The first bit of the first byte and the last bit of the last. -/
theorem witness_FlippedBitIsCorrupt :
    decodeBytes tiny v5 ≠ .corrupt ∧ (0 < v5.length ∧ 0 < 8) ∧ (10 < v5.length ∧ 7 < 8) := by decide +kernel
theorem witness_CorruptVerdictExactly :
    small.cfg = tiny ∧ decodeBytes tiny (List.replicate 9 0) = .corrupt
    ∧ decodeBytes tiny (List.replicate 19 0) = .corrupt := by decide +kernel
theorem witness_ReservedKindIsOtherAndIgnored :
    (3 ≤ (3#3).toNat ∧ 3 ≤ (7#3).toNat) ∧ tiny.maxFrame = tiny.maxPayload + 10
    ∧ (List.replicate 8 0#8).length ≤ tiny.maxPayload ∧ small.cfg = tiny ∧ small.iq.length ≠ tiny.iqCap := by decide
/-- One word for each clause, the illegal ones at both ends of their ranges. -/
theorem witness_HostWordDecodesByOpAndCode :
    (0x01AB0002#32).toNat / 2 ^ 24 = 1 ∧ (0x02FFFFFF#32).toNat / 2 ^ 24 = 2 ∧ (0x03000000#32).toNat / 2 ^ 24 = 3
    ∧ ((0x0400FFFF#32).toNat / 2 ^ 24 = 4 ∧ (0x0400FFFF#32).toNat / 2 ^ 16 % 2 ^ 8 = 0)
    ∧ ((0x04010000#32).toNat / 2 ^ 24 = 4 ∧ (0x04010000#32).toNat / 2 ^ 16 % 2 ^ 8 = 1)
    ∧ ((0x04020000#32).toNat / 2 ^ 24 = 4 ∧ (0x04020000#32).toNat / 2 ^ 16 % 2 ^ 8 = 2)
    ∧ ((0x0403FFFF#32).toNat / 2 ^ 24 = 4 ∧ (0x0403FFFF#32).toNat / 2 ^ 16 % 2 ^ 8 = 3)
    ∧ (0x00FFFFFF#32).toNat / 2 ^ 24 = 0 ∧ 5 ≤ (0x05000000#32).toNat / 2 ^ 24 ∧ 5 ≤ (0xFFFFFFFF#32).toNat / 2 ^ 24
    ∧ ((0x04040000#32).toNat / 2 ^ 24 = 4 ∧ 4 ≤ (0x04040000#32).toNat / 2 ^ 16 % 2 ^ 8)
    ∧ ((0x04FFFFFF#32).toNat / 2 ^ 24 = 4 ∧ 4 ≤ (0x04FFFFFF#32).toNat / 2 ^ 16 % 2 ^ 8) := by decide
theorem witness_SendOversizedIsRejected : small.cfg.maxPayload < (List.replicate 9 0#8).length := by decide
/-- At the capacity of one entry, once by a queued frame and once by the frame in flight. -/
theorem witness_SendToFullQueueIsRejected :
    ((List.replicate 8 0#8).length ≤ small.cfg.maxPayload
      ∧ small.cfg.oqCap ≤ [freshEntry dFrame].length + (if small.tx.txhValid then 1 else 0))
    ∧ ([] : Bytes).length ≤ small.cfg.maxPayload
      ∧ small.cfg.oqCap ≤ small.oq.length + (if (sending .awaitAck 0 0 false false 0).tx.txhValid then 1 else 0) := by
  decide
theorem witness_SendIsQueued :
    (List.replicate 8 0#8).length ≤ small.cfg.maxPayload
    ∧ small.oq.length + (if small.tx.txhValid then 1 else 0) < small.cfg.oqCap := by decide
theorem witness_RecvIssuesThenCompletes :
    (0x02FFFFFF#32).toNat / 2 ^ 24 = 2 ∧ (hostAt small 1).blocked = false
    ∧ ((hostAt (setHost 1 ⟨true, 0, 0, []⟩ smallFull) 1).blocked = true
      ∧ (setHost 1 ⟨true, 0, 0, []⟩ smallFull).iq = entry 0 :: [entry 1])
    ∧ ((hostAt (setHost 1 ⟨true, 0, 0, []⟩ small) 1).blocked = true ∧ (setHost 1 ⟨true, 0, 0, []⟩ small).iq = []) := by
  decide
theorem witness_StatusReturnsLastEvent : (0x03FFFFFF#32).toNat / 2 ^ 24 = 3 := by decide
theorem witness_CommandCodes :
    (0x0400FFFF#32).toNat / 2 ^ 16 = 0x0400 ∧ (0x04010000#32).toNat / 2 ^ 16 = 0x0401
    ∧ (0x04020000#32).toNat / 2 ^ 16 = 0x0402 ∧ (0x0403FFFF#32).toNat / 2 ^ 16 = 0x0403 := by decide
/-- The least negative and the greatest non-negative VALUE. -/
theorem witness_BeaconCommandSetsInterval :
    2 ^ 31 ≤ (0x80000000#32).toNat ∧ (0x7FFFFFFF#32).toNat < 2 ^ 31 := by decide
theorem witness_IllegalWordIsRejected :
    (match decodeHost 1 { word := 0x04040000#32 } with
     | .error .illegalWord => true
     | _                   => false) = true ∧ hostReady 1 small = true := by decide
/-- A command issued and a RECV completed. -/
theorem witness_HostReachesOnlyItsRegisters :
    (∃ t, hostStep 1 { word := 0x01000001#32 } small = .next t)
    ∧ ∃ t, completeStep 1 (setHost 1 ⟨true, 0, 0, []⟩ smallFull) = .next t :=
  ⟨next_of_after (by decide +kernel), next_of_after (by decide +kernel)⟩
/-- An unseen source at 0, a seen one at the wrap with slot 0 empty, and one whose slot 0 is occupied. -/
theorem witness_InOrderDataIsDelivered :
    (small.iq.length ≠ small.cfg.iqCap ∧ small.cfg.myAddr ≠ bcast ∧ 0#12 = expectedFrom small 1
      ∧ (windowFrom small 1).head? = some none)
    ∧ (tracking 4095 [none, some (entry 1)] [entry 4094]).iq.length
        ≠ (tracking 4095 [none, some (entry 1)] [entry 4094]).cfg.iqCap
      ∧ 4095#12 = expectedFrom (tracking 4095 [none, some (entry 1)] [entry 4094]) 1
      ∧ (windowFrom (tracking 4095 [none, some (entry 1)] [entry 4094]) 1).head? = some none
    ∧ (reassembling.iq.length ≠ reassembling.cfg.iqCap ∧ 5#12 = expectedFrom reassembling 1
      ∧ (windowFrom reassembling 1).head? = some (some (entry 6))) := by decide
/-- Slot 0 empty; a run of one, then a gap; a run of one, then IQ full; a full window. -/
theorem witness_DrainDeliversUntilGapOrFull :
    (windowAt small 1 = ([] : List InEntry).map some ++ none :: [none] ∧ (windowAt small 1).length = small.cfg.winSlots)
    ∧ (windowAt (tracking 3 [some (entry 3), none] [entry 2]) 1 = [entry 3].map some ++ none :: []
      ∧ (tracking 3 [some (entry 3), none] [entry 2]).iq.length + [entry 3].length ≤ small.cfg.iqCap)
    ∧ (windowAt (tracking 3 [some (entry 3), some (entry 4)] [entry 2]) 1 = [entry 3].map some ++ some (entry 4) :: []
      ∧ (tracking 3 [some (entry 3), some (entry 4)] [entry 2]).iq.length + [entry 3].length = small.cfg.iqCap)
    ∧ windowAt (tracking 3 [some (entry 3), some (entry 4)] []) 1 = [entry 3, entry 4].map some
      ∧ (tracking 3 [some (entry 3), some (entry 4)] []).iq.length + [entry 3, entry 4].length ≤ small.cfg.iqCap
      ∧ (windowAt (tracking 3 [some (entry 3), some (entry 4)] []) 1).length = small.cfg.winSlots
      ∧ 1 ≤ small.cfg.winSlots := by decide
/-- The nearest frame ahead and the farthest; both have d within 1 to 2047. -/
theorem witness_AheadDataIsBuffered :
    small.iq.length ≠ small.cfg.iqCap ∧ small.cfg.myAddr ≠ bcast
    ∧ 1 = ((1#12).toNat + 4096 - (expectedFrom small 1).toNat) % 4096
    ∧ 2047 = ((2046#12).toNat + 4096 - (expectedFrom (tracking 4095 [none, none] []) 1).toNat) % 4096 := by decide
/-- The ends of the range behind, and R232's worked example E = 1, n = 0. -/
theorem witness_BehindDataIsReAcked :
    small.iq.length ≠ small.cfg.iqCap ∧ small.cfg.myAddr ≠ bcast
    ∧ 2048 ≤ ((2048#12).toNat + 4096 - (expectedFrom small 1).toNat) % 4096
    ∧ 2048 ≤ ((0#12).toNat + 4096 - (expectedFrom (tracking 1 [none, none] []) 1).toNat) % 4096 := by decide
theorem witness_BroadcastDataIsDelivered :
    small.iq.length ≠ small.cfg.iqCap ∧ ((0#12).toNat + 4096 - small.rx.bcExp.toNat) % 4096 ≤ 2047
    ∧ ((2047#12).toNat + 4096 - small.rx.bcExp.toNat) % 4096 ≤ 2047 := by decide
/-- One frame for each of the seven kinds of ignored frame, all with room in IQ. -/
theorem witness_IgnoredFramesChangeNothing :
    small.iq.length ≠ small.cfg.iqCap ∧ small.cfg.myAddr ≠ bcast
    ∧ ((got .ack 0 2 1).kind = .ack ∧ (got .ack 0 2 1).dest = small.cfg.myAddr ∧ small.tx.txhValid = false)
    ∧ ((got .data 0 3 1).dest ≠ small.cfg.myAddr ∧ (got .data 0 3 1).dest ≠ bcast)
    ∧ ((got .beacon 0 0xFFFF 1).kind = .beacon ∧ small.cp.beaconEn ≠ true)
    ∧ ((got .data 2048 0xFFFF 1).dest = bcast ∧ 2047 < seqDistance 2048 small.rx.bcExp)
    ∧ ((got .beacon 0 2 1).kind = .beacon ∧ (got .beacon 0 2 1).dest = small.cfg.myAddr)
    ∧ ((got .ack 0 0xFFFF 1).kind = .ack ∧ (got .ack 0 0xFFFF 1).dest = bcast)
    ∧ (got (.other 3) 0 2 1).kind = .other 3
    ∧ receivedFrame (.ack false 0 2 1 []) = some (got .ack 0 2 1) := by decide
theorem witness_FullQueueDropsEveryFrame :
    smallFull.iq.length = smallFull.cfg.iqCap ∧ ¬ BeaconCase (got .beacon 0 0xFFFF 1) smallFull
    ∧ receivedFrame (.beacon false 0 0xFFFF 1 []) = some (got .beacon 0 0xFFFF 1) :=
  ⟨by decide, fun h => absurd h.2.2.1 (by decide), by decide⟩
theorem witness_MatchingAckMarksHead :
    running.iq.length ≠ running.cfg.iqCap ∧ running.tx.txhValid = true ∧ running.tx.txh.frame.kind = .data
    ∧ running.tx.txh.frame.dest = 2#16 ∧ running.tx.txh.frame.seq = 0#12 := by decide
/-- A timestamp one ahead of now(), one equal to it, and a payload of seven bytes. -/
theorem witness_BeaconIsAbsorbed :
    (dueBeacon [] false).cp.beaconEn = true ∧ ((2047#12).toNat + 4096 - (dueBeacon [] false).rx.bcExp.toNat) % 4096 ≤ 2047
    ∧ (be64 1001#64 <+: be64 1001#64 ∧ now (dueBeacon [] false) < 1001#64)
    ∧ (be64 1000#64 <+: be64 1000#64 ++ [0] ∧ 1000#64 ≤ now (dueBeacon [] false))
    ∧ (List.replicate 7 0#8).length < 8 := by decide
theorem witness_AbsorbSetsNow : 1000#64 ≤ now small ∧ now small < 1001#64 := by decide
theorem witness_BackoffBaseEndsOnBoundary :
    1 ≤ small.cfg.slotBoundary.toNat
    ∧ (now small).toNat + small.cfg.difsTime.toNat + small.cfg.slotBoundary.toNat < 2 ^ 64 := by decide
theorem witness_IdleServesFront :
    ((idling [] false).tx.state = .idle ∧ beaconDue (idling [] false) = false ∧ (idling [] false).oq = [])
    ∧ (beaconDue (idling [freshEntry (ackFrame 0 2)] true) = false ∧ (freshEntry (ackFrame 0 2)).frame.kind = .ack)
    ∧ ((freshEntry dFrame).frame.kind ≠ .ack ∧ (idling [freshEntry dFrame] true).chan.busy = true
      ∧ beaconDue (idling [freshEntry dFrame] true) = false)
    ∧ (idling [freshEntry dFrame] false).chan.busy = false ∧ beaconDue (idling [freshEntry dFrame] false) = false := by
  decide
/-- One entry below OQ_CAP + OQ_HEADROOM = 8 on a busy and an idle channel; then at it, with an ACK and with
DATA at the front. The empty queue meets no room only where both capacities are 0, which R8 refuses. -/
theorem witness_IdleSendsDueBeacon :
    ((dueBeacon (List.replicate 7 (freshEntry dFrame)) true).tx.state = .idle
      ∧ (dueBeacon (List.replicate 7 (freshEntry dFrame)) true).tx.txhValid = false
      ∧ beaconDue (dueBeacon (List.replicate 7 (freshEntry dFrame)) true) = true
      ∧ (keptFrames (dueBeacon (List.replicate 7 (freshEntry dFrame)) true)).length < 4 + 4)
    ∧ (keptFrames (dueBeacon (List.replicate 7 (freshEntry dFrame)) false)).length < 4 + 4
    ∧ (4 + 4 ≤ (keptFrames (dueBeacon (freshEntry (ackFrame 0 2) :: List.replicate 7 (freshEntry dFrame)) true)).length
      ∧ keptFrames (dueBeacon (freshEntry (ackFrame 0 2) :: List.replicate 7 (freshEntry dFrame)) true)
          = freshEntry (ackFrame 0 2) :: List.replicate 7 (freshEntry dFrame)
      ∧ (freshEntry (ackFrame 0 2)).frame.kind = .ack)
    ∧ (4 + 4 ≤ (keptFrames (dueBeacon (List.replicate 8 (freshEntry dFrame)) true)).length
      ∧ (dueBeacon (List.replicate 8 (freshEntry dFrame)) true).chan.busy = true
      ∧ keptFrames (dueBeacon (List.replicate 8 (freshEntry dFrame)) true)
          = freshEntry dFrame :: List.replicate 7 (freshEntry dFrame)
      ∧ (freshEntry dFrame).frame.kind ≠ .ack)
    ∧ ((dueBeacon (List.replicate 8 (freshEntry dFrame)) false).chan.busy = false
      ∧ beaconDue (dueBeacon (List.replicate 8 (freshEntry dFrame)) false) = true)
    ∧ beaconDue { dueBeacon [] false with cfg := { tiny with oqCap := 0, oqHeadroom := 0 } } = true := by decide
theorem witness_DifsWaitBusyFirstThenDeadline :
    ((sending .difsWait 1800 1800 true false 0).tx.state = .difsWait ∧ (sending .difsWait 1800 1800 true false 0).chan.busy = true)
    ∧ now (sending .difsWait 1799 1800 false true 2) < (sending .difsWait 1799 1800 false true 2).tx.deadline
    ∧ ((sending .difsWait 1800 1800 false true 0).tx.deadline ≤ now (sending .difsWait 1800 1800 false true 0)
      ∧ (sending .difsWait 1800 1800 false true 0).cp.backoff = 0#16)
    ∧ (sending .difsWait 1800 1800 false true 1).tx.deadline ≤ now (sending .difsWait 1800 1800 false true 1)
      ∧ (sending .difsWait 1800 1800 false true 1).tx.needBackoff = true
      ∧ (sending .difsWait 1800 1800 false true 1).cp.backoff ≠ 0#16 := by decide
theorem witness_WaitChannelIdleReRunsDifs :
    (sending .waitChannelIdle 900 0 true true 0).tx.state = .waitChannelIdle
    ∧ (sending .waitChannelIdle 900 0 true true 0).chan.busy = true
    ∧ (sending .waitChannelIdle 900 0 false true 0).chan.busy = false := by decide
theorem witness_BackoffSlotCountsIdleSlots :
    ((sending .backoffSlot 2200 2200 true true 1).tx.state = .backoffSlot
      ∧ (sending .backoffSlot 2200 2200 true true 1).chan.busy = true)
    ∧ now (sending .backoffSlot 2199 2200 false true 1) < (sending .backoffSlot 2199 2200 false true 1).tx.deadline
    ∧ ((sending .backoffSlot 2200 2200 false true 1).tx.deadline ≤ now (sending .backoffSlot 2200 2200 false true 1)
      ∧ (sending .backoffSlot 2200 2200 false true 1).cp.backoff.toNat = 1)
    ∧ 2 ≤ (sending .backoffSlot 2200 2200 false true 2).cp.backoff.toNat := by decide
theorem witness_TransmitHandsFrameToChannel :
    (sending .transmit 0 0 true false 0).tx.state = .transmit
    ∧ ((sending .transmit 0 0 true false 0).tx.txh.frame.kind = .data
      ∧ (sending .transmit 0 0 true false 0).tx.txh.frame.dest ≠ bcast)
    ∧ ({ dFrame with dest := bcast } : Frame).dest = bcast ∧ ({ dFrame with kind := .beacon } : Frame).kind ≠ .data := by
  decide
theorem witness_AckedHeadIsDelivered :
    (waiting 9999 31 5 true []).tx.state = .awaitAck ∧ (waiting 9999 31 5 true []).tx.txh.acked = true := by decide
theorem witness_RetryLimitFailsHead :
    (waiting 9999 31 5 false []).tx.state = .awaitAck ∧ (waiting 9999 31 5 false []).tx.txh.acked = false
    ∧ (waiting 9999 31 5 false []).cfg.retryLimit ≤ (waiting 9999 31 5 false []).tx.txh.retries.toNat := by decide
theorem witness_AckTimeoutRetransmits :
    (waiting 3800 16 4 false []).tx.state = .awaitAck ∧ (waiting 3800 16 4 false []).tx.txh.acked = false
    ∧ (waiting 3800 16 4 false []).tx.txh.retries.toNat < (waiting 3800 16 4 false []).cfg.retryLimit
    ∧ (waiting 3800 16 4 false []).cfg.cwMax ≤ 0xFFFF
    ∧ (waiting 3800 16 4 false []).cfg.ackTimeout
        ≤ now (waiting 3800 16 4 false []) - (waiting 3800 16 4 false []).cp.ackWaitStart := by decide
theorem witness_AwaitAckServesAckOrPolls :
    ((waiting 3799 2 1 false []).tx.state = .awaitAck ∧ (waiting 3799 2 1 false []).tx.txh.acked = false
      ∧ (waiting 3799 2 1 false []).tx.txh.retries.toNat < (waiting 3799 2 1 false []).cfg.retryLimit
      ∧ now (waiting 3799 2 1 false []) - (waiting 3799 2 1 false []).cp.ackWaitStart
          < (waiting 3799 2 1 false []).cfg.ackTimeout
      ∧ (waiting 3799 2 1 false []).oq = [])
    ∧ (waiting 3799 2 1 false [freshEntry (ackFrame 3 2)]).oq = freshEntry (ackFrame 3 2) :: []
    ∧ (freshEntry (ackFrame 3 2)).frame.kind = .ack ∧ (freshEntry d3Frame).frame.kind ≠ .ack := by decide
theorem witness_AckGoesAfterSifs :
    ((acking false true 2000).tx.state = .sendAckSifs ∧ (acking false true 2000).tx.ackPhase = false
      ∧ (acking false true 2000).chan.busy = true)
    ∧ ((acking false false 2000).tx.ackPhase = false ∧ (acking false false 2000).chan.busy = false)
    ∧ ((acking true true 2099).tx.ackPhase = true ∧ now (acking true true 2099) < (acking true true 2099).tx.deadline)
    ∧ (acking true true 2100).tx.ackPhase = true ∧ (acking true true 2100).tx.deadline ≤ now (acking true true 2100) := by
  decide
theorem witness_ResetMeetsEveryInvariant : tiny.ok = true ∧ Config.reference.ok = true := by decide

theorem running_transmitInvariant : TransmitInvariant running := by
  constructor <;> decide +kernel
theorem witness_EveryStepKeepsTransmitInvariant :
    TransmitInvariant running ∧ ∃ t, step running = .next t :=
  ⟨running_transmitInvariant, next_of_after (by decide +kernel)⟩

theorem reassembling_receiveInvariant : ReceiveInvariant reassembling := by
  have h (a : Addr) (ha : a ≠ 1#16) :
      inExpAt reassembling a = 0#12 ∧ windowAt reassembling a = emptyWindow reassembling.cfg := by
    have hn : a.toNat ≠ (1#16).toNat := addr_toNat_ne ha
    exact ⟨tableGet_set_of_ne 0#12 [] 5#12 hn, tableGet_set_of_ne (emptyWindow tiny) [] [some (entry 6), none] hn⟩
  refine ⟨fun a => ?_, fun a ha => ?_⟩
  · by_cases ha : a = 1#16
    · subst ha
      refine ⟨by decide, fun i c hc => ?_⟩
      change ([some (entry 6), none] : Window)[i]? = some (some c) at hc
      match i with
      | 0     => exact Option.some.inj (Option.some.inj hc) ▸ by decide
      | 1     => cases hc
      | _ + 2 => cases hc
    · rw [(h a ha).1, (h a ha).2]
      refine ⟨by simp [emptyWindow], fun i c hc => ?_⟩
      simp [emptyWindow, List.getElem?_replicate] at hc
  · by_cases h1 : a = 1#16
    · subst h1
      exact absurd ha (by decide)
    · exact h a h1

theorem witness_EveryStepKeepsWindowsAligned :
    ReceiveInvariant reassembling ∧ ∃ t, step reassembling = .next t :=
  ⟨reassembling_receiveInvariant, next_of_after (by decide +kernel)⟩
theorem witness_EveryStepKeepsQueuesBounded :
    TransmitInvariant running ∧ QueuesBounded running ∧ ∃ t, step running = .next t :=
  ⟨running_transmitInvariant, ⟨by decide, by decide⟩, next_of_after (by decide +kernel)⟩
theorem witness_EveryStepKeepsTablesCanonical :
    TablesCanonical reassembling ∧ ∃ t, step reassembling = .next t :=
  ⟨by constructor <;> decide, next_of_after (by decide +kernel)⟩
theorem witness_EveryStepKeepsStatusLegal :
    StatusLegal reassembling ∧ ∃ t, step reassembling = .next t :=
  ⟨by unfold StatusLegal; decide, next_of_after (by decide +kernel)⟩
theorem witness_EveryStepKeepsFramesShaped :
    TransmitInvariant running ∧ FramesShaped running ∧ ∃ t, step running = .next t := by
  refine ⟨running_transmitInvariant, ⟨by decide, by decide, by decide, fun b hb => ?_⟩, next_of_after (by decide +kernel)⟩
  exact ⟨dFrame, by decide, List.mem_singleton.1 hb⟩
theorem witness_OnlyReceiveWritesTracker : (∃ t, step running = .next t) ∧ nextStep running ≠ .rx :=
  ⟨next_of_after (by decide +kernel), by decide⟩
/-- At the last value below the bound, and with a beacon that raises OFFSET. -/
theorem witness_OffsetNeverDecreases :
    let s := { reassembling with chan := { reassembling.chan with clock := 0xFFFFFFFFFFFFFFFF#64 } }
    s.chan.clock.toNat + s.cp.offset.toNat < 2 ^ 64 ∧ ∃ t, step s = .next t :=
  ⟨by decide, next_of_after (by decide +kernel)⟩
theorem witness_SightedSourceStaysSeen : inSeenAt reassembling 1 = true ∧ ∃ t, step reassembling = .next t :=
  ⟨by decide, next_of_after (by decide +kernel)⟩
theorem witness_LegalStateAlwaysSteps : running.cfg.ok = true ∧ running.tx.state ≠ .unused := by decide
theorem witness_TransmitLogGrowsOnlyByTransmit :
    ∃ t, step { running with tx := { running.tx with state := .transmit } } = .next t :=
  next_of_after (by decide +kernel)
theorem witness_BackoffAndWindowWriters : running.cfg.cwMax ≤ 0xFFFF ∧ ∃ t, step running = .next t :=
  ⟨by decide, next_of_after (by decide +kernel)⟩
theorem witness_UnicastDeliveryIsConsecutive :
    ReceiveInvariant reassembling ∧ reassembling.cfg.myAddr ≠ bcast
    ∧ ∃ t, exec (.data false 5 reassembling.cfg.myAddr 1 []) reassembling = .next t :=
  ⟨reassembling_receiveInvariant, by decide, ⟨_, rfl⟩⟩
/-- The delivered frame is 5 with W = 2, IQ keeps room for the duplicate, and its drain ends at once. -/
theorem witness_DuplicateIsReAckedNotDelivered :
    ReceiveInvariant small ∧ small.cfg.myAddr ≠ bcast ∧ small.cfg.winSlots < 2048 ∧ 0#12 = inExpAt small 1
    ∧ small.iq.length ≠ small.cfg.iqCap
    ∧ ∃ t, exec (.data false 0 small.cfg.myAddr 1 []) small = .next t ∧ t.iq.length ≠ t.cfg.iqCap := by
  refine ⟨⟨fun a => ⟨by rfl, fun i c hc => ?_⟩, fun a _ => ⟨rfl, rfl⟩⟩, by decide, by decide, by decide, by decide,
    _, rfl, by decide +kernel⟩
  change (emptyWindow tiny)[i]? = some (some c) at hc
  simp [emptyWindow, List.getElem?_replicate] at hc
theorem witness_DebugIsReadByNoRule : ∃ t, step running = .next t := next_of_after (by decide +kernel)
theorem witness_StepRunsReceivedFrame :
    reassembling.cfg.ok = true ∧ nextStep reassembling = .rx
    ∧ reassembling.chan.rxq = encodeFrame ⟨.data, false, 5, 2, 1, []⟩ :: []
    ∧ (decodeFrame reassembling.cfg (encodeFrame ⟨.data, false, 5, 2, 1, []⟩)).toOption
        = some (.data false 5 2 1 []) := by decide +kernel
/-- A ready agent with a legal word, and a blocked agent that completes. -/
theorem witness_StepRunsHostCommand :
    (small.cfg.ok = true ∧ nextStep { small with sched := [.host 1 { word := 0x03000000#32 }] } = .host 1 { word := 0x03000000#32 }
      ∧ hostReady 1 small = true ∧ (decodeHost 1 { word := 0x03000000#32 }).toOption = some (.status 1))
    ∧ nextStep { setHost 1 ⟨true, 0, 0, []⟩ smallFull with sched := [.complete 1] } = .complete 1
      ∧ hostExists smallFull.cfg 1 = true ∧ (hostAt (setHost 1 ⟨true, 0, 0, []⟩ smallFull) 1).blocked = true := by decide
/-- Each of the four environment steps picked, and RX picked with nothing received. -/
theorem witness_ChannelInputsHaveTheirWriters :
    small.cfg.ok = true
    ∧ nextStep { small with sched := [.tick 1] } = .tick 1 ∧ nextStep { small with sched := [.busy true] } = .busy true
    ∧ nextStep { small with sched := [.arrive v5] } = .arrive v5
    ∧ nextStep { small with sched := [.idleTime 9] } = .idleTime 9
    ∧ (nextStep { small with sched := [.rx] } = .rx ∧ small.chan.rxq = [])
    ∧ (nextStep reassembling = .rx ∧ ∃ t, step reassembling = .next t)
    ∧ (nextStep running ≠ .rx ∧ ∃ t, step running = .next t) :=
  ⟨by decide, by decide, by decide, by decide, by decide, by decide, ⟨by decide, next_of_after (by decide +kernel)⟩,
    ⟨by decide, next_of_after (by decide +kernel)⟩⟩

end Sys2Proof.Tests
end

/-! # What each agent's step can do, said once per agent, and the induction over the station's steps that the
invariants share. -/

namespace Sys2Proof.Machine

/-! ## The scheduler and the environment -/

/-- Using up a pick touches the model's own schedule and nothing of the station (log 1). -/
theorem consumePick_eq (s : State) :
    consumePick s = { s with sched := (consumePick s).sched, schedCount := (consumePick s).schedCount } := by
  unfold consumePick
  split <;> rfl

/-! ## RX (R220, R221) -/

/-- A received frame is an instruction of that frame, or has a reserved kind. -/
theorem instrOfFrame_cases (d : RxFrame) :
    instrOfFrame d = .error (.reservedKind d) ∨ ∃ i, instrOfFrame d = .ok i ∧ receivedFrame i = some d := by
  obtain ⟨kind, _, _, _, _, _⟩ := d
  cases kind with
  | data => exact .inr ⟨_, rfl, rfl⟩
  | ack => exact .inr ⟨_, rfl, rfl⟩
  | beacon => exact .inr ⟨_, rfl, rfl⟩
  | other code => exact .inl rfl

/-- A byte string is corrupt, or a frame of a reserved kind, or an instruction of a frame. -/
theorem decodeFrame_cases (c : Config) (b : Bytes) :
    decodeFrame c b = .error .corruptFrame
    ∨ (∃ d, decodeFrame c b = .error (.reservedKind d))
    ∨ ∃ i d, decodeFrame c b = .ok i ∧ receivedFrame i = some d := by
  unfold decodeFrame
  cases decodeBytes c b with
  | corrupt => exact .inl rfl
  | ok d =>
    rcases instrOfFrame_cases d with h | ⟨i, h, hi⟩
    · exact .inr (.inl ⟨d, h⟩)
    · exact .inr (.inr ⟨i, d, h, hi⟩)

/-- Executing a frame row is the dispatch of its frame (R222). -/
theorem exec_of_receivedFrame {i : Instr} {d : RxFrame} (h : receivedFrame i = some d) (s : State) :
    exec i s = .next (dispatch d s) := by
  cases i <;> cases h <;> rfl

/-- An RX step holds while nothing has arrived (R220); else it takes the oldest byte string and drops it as
corrupt or dispatches its frame (R221). -/
theorem rxStep_next {s t : State} (h : rxStep s = .next t) :
    (s.chan.rxq = [] ∧ t = s)
    ∨ ∃ b q, s.chan.rxq = b :: q
        ∧ (t = dropCorrupt { s with chan := { s.chan with rxq := q } }
          ∨ ∃ d, t = dispatch d { s with chan := { s.chan with rxq := q } }) := by
  unfold rxStep at h
  split at h
  · cases h
    exact .inl ⟨‹_›, rfl⟩
  · rename_i b q hq
    refine .inr ⟨b, q, hq, ?_⟩
    unfold rxFrame at h
    rcases decodeFrame_cases s.cfg b with hd | ⟨d, hd⟩ | ⟨i, d, hd, hi⟩ <;> simp only [hd] at h
    · cases h
      exact .inl rfl
    · cases h
      exact .inr ⟨d, rfl⟩
    · rw [exec_of_receivedFrame hi] at h
      cases h
      exact .inr ⟨d, rfl⟩

/-- A broadcast frame that passes the filter writes BC_EXP at most (R240). -/
theorem bcastPass_eq {n : Seq} {s t : State} (h : bcastPass n s = some t) : ∃ v, t = setBcExp v s := by
  rcases bcastPass_some h with ⟨_, rfl⟩ | ⟨_, rfl⟩
  · exact ⟨_, rfl⟩
  · exact ⟨t.rx.bcExp, rfl⟩

/-- Absorbing a payload writes OFFSET at most (R224, R150). -/
theorem absorbPayload_eq (p : Bytes) (s : State) :
    absorbPayload p s = { s with cp := { s.cp with offset := (absorbPayload p s).cp.offset } } := by
  rcases absorbPayload_cases p s with e | ⟨_, _, e⟩ <;> rw [e]

/-! ## Host agents (R270 to R288) -/

/-- What a command or a completion of host agent `h` can do to the station, one constructor per outcome. -/
inductive HostMoves (h : Nat) (s : State) : State → Prop where
  /-- A completion step while IQ is empty (R277) [log 8]. -/
  | hold : HostMoves h s s
  /-- A rejected SEND or an illegal word (R273, R275, R288). -/
  | reject (c : Status)
      (code : c = .badBufferSize ∨ c = .insufficientBufferSpace ∨ c = .illegalArgument) :
      HostMoves h s (rejectCommand h c s)
  /-- An accepted SEND (R274). -/
  | accept (a : Addr) (p : Bytes) (fits : p.length ≤ s.cfg.maxPayload) (room : occupancy s < s.cfg.oqCap) :
      HostMoves h s (acceptSend h a p s)
  /-- RECV's issue step (R277). -/
  | issue : HostMoves h s (recvIssue h s)
  /-- RECV's completion step (R277). -/
  | complete (e : InEntry) (q : List InEntry) (front : s.iq = e :: q) : HostMoves h s (recvComplete h e q s)
  /-- STATUS and CMD: a RESULT, and for CMD the policy registers it sets (R280 to R286). -/
  | answer (v : Word32) (en : Bool) (interval : Time) (dbg : Word32) (fixed : Bool) :
      HostMoves h s (setResult h v
        { s with cp := { s.cp with beaconEn := en, beaconInterval := interval, debug := dbg, fixedSlot := fixed } })

/-- The parts of the state that a host agent's move can write. -/
theorem HostMoves.frame {h : Nat} {s t : State} (hm : HostMoves h s t) :
    t = { s with
          cp := { s.cp with
                  beaconEn := t.cp.beaconEn, beaconInterval := t.cp.beaconInterval
                  lastEvent := t.cp.lastEvent, debug := t.cp.debug, fixedSlot := t.cp.fixedSlot }
          oq := t.oq, rx := { s.rx with outSeq := t.rx.outSeq }, iq := t.iq, hosts := t.hosts } := by
  cases hm <;> rfl

/-- No move of a host agent writes the parameters (R332). -/
theorem HostMoves.cfg {h : Nat} {s t : State} (hm : HostMoves h s t) : t.cfg = s.cfg := by
  rw [hm.frame]

/-- No move of a host agent writes a table of the tracker (R72). -/
theorem HostMoves.rx {h : Nat} {s t : State} (hm : HostMoves h s t) :
    t.rx = { s.rx with outSeq := t.rx.outSeq } := by
  rw [hm.frame]

theorem execSend_moves {h : Nat} {a : Addr} {p : Bytes} {s t : State} (he : execSend h a p s = .next t) :
    HostMoves h s t := by
  unfold execSend at he
  cases he
  split
  · exact .reject _ (.inl rfl)
  · split
    · exact .reject _ (.inr (.inl rfl))
    · exact .accept a p (by omega) (by omega)

theorem execRecv_moves {h : Nat} {s t : State} (he : execRecv h s = .next t) : HostMoves h s t := by
  unfold execRecv at he
  cases he
  split
  · split
    · exact .hold
    · exact .complete _ _ ‹_›
  · exact .issue

theorem execCmdBeacon_moves {h : Nat} {v : Word32} {s t : State} (he : execCmdBeacon h v s = .next t) :
    HostMoves h s t := by
  unfold execCmdBeacon setBeacons at he
  cases he
  split
  · exact .answer _ _ _ _ _
  · exact .answer _ _ _ _ _

/-- An instruction decoded from a command on port `h` makes one of `h`'s moves. -/
theorem exec_moves {h : Nat} {k : HostCommand} {i : Instr} (hd : decodeHost h k = .ok i) {s t : State}
    (he : exec i s = .next t) : HostMoves h s t := by
  unfold decodeHost at hd
  split_ifs at hd <;> cases hd
  · exact execSend_moves he
  · exact execRecv_moves he
  · cases he
    exact .answer _ _ _ _ _
  · cases he
    exact .answer _ _ _ _ _
  · cases he
    exact .answer _ _ _ _ _
  · cases he
    exact .answer _ _ _ _ _
  · exact execCmdBeacon_moves he

theorem hostReady_exists {h : Nat} {s : State} (hr : hostReady h s = true) : hostExists s.cfg h = true := by
  unfold hostReady at hr
  exact (Bool.and_eq_true_iff.1 hr).1

/-- A host agent picked with a command holds, or it exists and makes one of its moves (R44, R270). -/
theorem hostStep_moves {h : Nat} {k : HostCommand} {s t : State} (he : hostStep h k s = .next t) :
    t = s ∨ hostExists s.cfg h = true ∧ HostMoves h s t := by
  rcases hostStep_cases h k s with ⟨_, e⟩ | ⟨hr, i, hd, e⟩ | ⟨hr, _, e⟩ <;> rw [e] at he
  · cases he
    exact .inl rfl
  · exact .inr ⟨hostReady_exists hr, exec_moves hd he⟩
  · cases he
    exact .inr ⟨hostReady_exists hr, .reject _ (.inr (.inr rfl))⟩

/-- A host agent picked to complete holds, or it exists and makes one of its moves (R44, R277). -/
theorem completeStep_moves {h : Nat} {s t : State} (he : completeStep h s = .next t) :
    t = s ∨ hostExists s.cfg h = true ∧ HostMoves h s t := by
  unfold completeStep at he
  split at he
  · rename_i hc
    exact .inr ⟨(Bool.and_eq_true_iff.1 hc).1, execRecv_moves he⟩
  · cases he
    exact .inl rfl

/-! ## TX (R171): what `TransmitWrites` leaves open -/

/-- The number of entries of OQ and in flight never passes both what it was and the capacity with headroom;
OUT_SEQ has at most one write; of the policy registers TX writes five, LAST_EVENT only with its two codes. -/
structure TransmitEffects (s t : State) : Prop where
  cp        : t.cp = { s.cp with
                lastBeacon := t.cp.lastBeacon, cw := t.cp.cw, backoff := t.cp.backoff
                ackWaitStart := t.cp.ackWaitStart, lastEvent := t.cp.lastEvent }
  event     : t.cp.lastEvent = s.cp.lastEvent ∨ t.cp.lastEvent = 4#8 ∨ t.cp.lastEvent = 5#8
  outSeq    : t.rx.outSeq = s.rx.outSeq ∨ ∃ (a : Addr) (v : Seq), t.rx.outSeq = (setOutSeq a v s).rx.outSeq
  occ       : occupancy t ≤ max (occupancy s) (s.cfg.oqCap + s.cfg.oqHeadroom)

namespace TransmitEffects

theorem refl (s : State) : TransmitEffects s s := ⟨rfl, .inl rfl, .inl rfl, le_max_left _ _⟩

/-- Writes to the transmit unit's other registers, and removals from OQ, add no effect. -/
theorem then_kept {s u t : State} (h : TransmitEffects s u) (cp : t.cp = u.cp) (rx : t.rx = u.rx)
    (occ : occupancy t ≤ occupancy u) : TransmitEffects s t := by
  obtain ⟨hcp, hev, hseq, hocc⟩ := h
  exact ⟨by rw [cp]; exact hcp, by rw [cp]; exact hev, by rw [rx]; exact hseq, occ.trans hocc⟩

/-- A backoff draw adds no effect (R197). -/
theorem reload {s u : State} (h : TransmitEffects s u) : TransmitEffects s (reloadBackoff u) := by
  obtain ⟨b, n, e, _⟩ := reloadBackoff_cases u
  obtain ⟨hcp, hev, hseq, hocc⟩ := h
  rw [e]
  exact ⟨by rw [hcp], hev, hseq, hocc⟩

end TransmitEffects

/-- occ with TXH_VALID read as a number (R38). -/
theorem occupancy_eq (s : State) : occupancy s = s.oq.length + s.tx.txhValid.toNat := by
  unfold occupancy
  cases s.tx.txhValid <;> rfl

theorem occupancy_le_of_oq {s t : State} (tx : t.tx = s.tx) (oq : t.oq.length ≤ s.oq.length) :
    occupancy t ≤ occupancy s := by
  simp only [occupancy_eq, tx]
  omega

theorem occupancy_pushFrontOq (e : OutEntry) (s : State) : occupancy (pushFrontOq e s) = occupancy s + 1 := by
  simp only [occupancy_eq, pushFrontOq_oq, pushFrontOq_tx, List.length_cons]
  omega

theorem occupancy_pushBackOq (e : OutEntry) (s : State) : occupancy (pushBackOq e s) = occupancy s + 1 := by
  simp only [occupancy_eq, pushBackOq_oq, pushBackOq_tx, List.length_append, List.length_singleton]
  omega

theorem occupancy_resolveHead (s : State) : occupancy (resolveHead s) ≤ occupancy s := by
  simp [occupancy_eq]

theorem occupancy_enterAckPath {s : State} {e : OutEntry} {q : List OutEntry} (ret : Bool) (h : s.oq = e :: q) :
    occupancy (enterAckPath ret e q s) ≤ occupancy s := by
  simp only [occupancy_eq, enterAckPath_oq, enterAckPath_tx, h, List.length_cons]
  omega

theorem occupancy_loadHead {s : State} {e : OutEntry} {q : List OutEntry} (h : s.oq = e :: q) :
    occupancy (loadHead e q s) ≤ occupancy s := by
  simp only [occupancy_eq, loadHead_oq, loadHead_tx, h, List.length_cons, Bool.toNat_true]
  omega

theorem occupancy_purgePeer (p : Addr) (s : State) : occupancy (purgePeer p s) ≤ occupancy s :=
  occupancy_le_of_oq rfl (List.length_filter_le _ _)

theorem removeBeacons_effects (s : State) (c : Time) :
    TransmitEffects s (removeBeacons { s with cp := { s.cp with lastBeacon := c } }) := by
  refine ⟨rfl, .inl rfl, .inl rfl, le_max_of_le_left ?_⟩
  exact occupancy_le_of_oq rfl (List.length_filter_le _ _)

theorem beaconCheck_effects (s : State) : TransmitEffects s (beaconCheck s) := by
  rcases beaconCheck_cases s with ⟨_, e⟩ | ⟨_, e⟩ <;> rw [e]
  · exact .refl s
  · rcases insertBeacon_cases (be64 (now s)) (removeBeacons { s with cp := { s.cp with lastBeacon := now s } }) with
      ⟨room, e⟩ | ⟨_, e⟩ <;> rw [e]
    · refine ⟨rfl, .inl rfl, .inr ⟨bcast, _, rfl⟩, le_max_of_le_right ?_⟩
      rw [occupancy_pushFrontOq]
      exact room
    · exact removeBeacons_effects s _

theorem serveQueue_effects {s u : State} (h : TransmitEffects s u) : TransmitEffects s (serveQueue u) := by
  rcases serveQueue_cases u with ⟨_, e⟩ | ⟨x, q, hq, _, e⟩ | ⟨x, q, hq, _, _, e⟩ | ⟨x, q, hq, _, _, e⟩ <;> rw [e]
  · exact h
  · exact h.then_kept rfl rfl (occupancy_enterAckPath _ hq)
  · exact h.then_kept rfl rfl (occupancy_loadHead hq)
  · exact h.then_kept rfl rfl (occupancy_loadHead hq)

theorem enterBackoff_effects {s u : State} (h : TransmitEffects s u) : TransmitEffects s (enterBackoff u) := by
  rcases enterBackoff_cases u with ⟨_, e⟩ | ⟨_, e⟩ <;> rw [e]
  · exact h.then_kept rfl rfl le_rfl
  · exact h.then_kept rfl rfl le_rfl

theorem txDifsWait_effects (s : State) : TransmitEffects s (txDifsWait s) := by
  unfold txDifsWait
  split
  · exact (TransmitEffects.refl s).then_kept rfl rfl le_rfl
  · split
    · split
      · exact enterBackoff_effects (.refl s)
      · exact (TransmitEffects.refl s).then_kept rfl rfl le_rfl
    · exact .refl s

theorem txBackoffSlot_effects (s : State) : TransmitEffects s (txBackoffSlot s) := by
  unfold txBackoffSlot
  split
  · exact (TransmitEffects.refl s).then_kept rfl rfl le_rfl
  · split
    · exact enterBackoff_effects ⟨rfl, .inl rfl, .inl rfl, le_max_left _ _⟩
    · exact .refl s

theorem txTransmit_effects (s : State) : TransmitEffects s (txTransmit s) := by
  unfold txTransmit
  dsimp only
  split
  · exact ⟨rfl, .inl rfl, .inl rfl, le_max_left _ _⟩
  · refine TransmitEffects.reload ?_
    split
    · exact ⟨rfl, .inr (.inl rfl), .inl rfl, le_max_of_le_left (occupancy_resolveHead _)⟩
    · exact ⟨rfl, .inl rfl, .inl rfl, le_max_of_le_left (occupancy_resolveHead _)⟩

theorem headFailed_effects (s : State) : TransmitEffects s (headFailed s) := by
  refine TransmitEffects.reload ⟨rfl, .inr (.inr rfl), .inr ⟨s.tx.txh.frame.dest, _, rfl⟩, le_max_of_le_left ?_⟩
  exact (occupancy_purgePeer _ _).trans (occupancy_resolveHead s)

theorem headTimedOut_effects (s : State) : TransmitEffects s (headTimedOut s) := by
  have h : TransmitEffects s (reloadBackoff (doubleWindow s)) :=
    TransmitEffects.reload ⟨rfl, .inl rfl, .inl rfl, le_max_left _ _⟩
  exact h.then_kept rfl rfl le_rfl

theorem txAwaitAck_effects (s : State) : TransmitEffects s (txAwaitAck s) := by
  unfold txAwaitAck
  split
  · exact TransmitEffects.reload ⟨rfl, .inr (.inl rfl), .inl rfl, le_max_of_le_left (occupancy_resolveHead s)⟩
  · split
    · exact headFailed_effects s
    · split
      · exact headTimedOut_effects s
      · rcases serveAckWhileWaiting_cases s with e | ⟨x, q, hq, _, e⟩ <;> rw [e]
        · exact .refl s
        · exact (TransmitEffects.refl s).then_kept rfl rfl (occupancy_enterAckPath _ hq)

theorem txWaitChannelIdle_effects (s : State) : TransmitEffects s (txWaitChannelIdle s) := by
  unfold txWaitChannelIdle
  split
  · exact .refl s
  · exact (TransmitEffects.refl s).then_kept rfl rfl le_rfl

theorem txSendAckSifs_effects (s : State) : TransmitEffects s (txSendAckSifs s) := by
  unfold txSendAckSifs
  split
  · split
    · exact (TransmitEffects.refl s).then_kept rfl rfl le_rfl
    · exact .refl s
  · split
    · exact .refl s
    · exact (TransmitEffects.refl s).then_kept rfl rfl le_rfl

/-- Every TX step has no effects but these. -/
theorem txStep_effects {s t : State} (h : txStep s = .next t) : TransmitEffects s t := by
  rcases txStep_next h with
    ⟨_, rfl⟩ | ⟨_, rfl⟩ | ⟨_, rfl⟩ | ⟨_, rfl⟩ | ⟨_, rfl⟩ | ⟨_, rfl⟩ | ⟨_, rfl⟩
  · exact serveQueue_effects (beaconCheck_effects s)
  · exact txDifsWait_effects s
  · exact txBackoffSlot_effects s
  · exact txTransmit_effects s
  · exact txAwaitAck_effects s
  · exact txWaitChannelIdle_effects s
  · exact txSendAckSifs_effects s

/-! ## Invariants of every step -/

/-- What a step of the agent picked can be: a TX step; RX taking a byte string it drops or dispatches; a move of
an existing host agent; or a write to the channel port at most, which covers the environment and every hold. -/
theorem runAgent_next {a : AgentStep} {s t : State} (h : runAgent a s = .next t) :
    txStep s = .next t
    ∨ (∃ q, t = dropCorrupt { s with chan := { s.chan with rxq := q } })
    ∨ (∃ d q, t = dispatch d { s with chan := { s.chan with rxq := q } })
    ∨ (∃ g, hostExists s.cfg g = true ∧ HostMoves g s t)
    ∨ ∃ c, t = { s with chan := c } := by
  have hostCase {g : Nat} (hm : t = s ∨ hostExists s.cfg g = true ∧ HostMoves g s t) :
      (∃ g, hostExists s.cfg g = true ∧ HostMoves g s t) ∨ ∃ c, t = { s with chan := c } :=
    hm.symm.imp (fun hm => ⟨g, hm⟩) fun ht => ⟨s.chan, ht⟩
  cases a with
  | tx => exact .inl h
  | rx =>
    rcases rxStep_next h with ⟨_, ht⟩ | ⟨b, q, _, ht | ⟨d, ht⟩⟩
    · exact .inr (.inr (.inr (.inr ⟨s.chan, ht⟩)))
    · exact .inr (.inl ⟨q, ht⟩)
    · exact .inr (.inr (.inl ⟨d, q, ht⟩))
  | host g k => exact .inr (.inr (.inr (hostCase (hostStep_moves h))))
  | complete g => exact .inr (.inr (.inr (hostCase (completeStep_moves h))))
  | tick | busy | arrive | idleTime =>
    cases h
    exact .inr (.inr (.inr (.inr ⟨_, rfl⟩)))

/-- A predicate that no agent's step breaks is kept by every step of the station. The scheduler and the
environment write the channel port and the schedule only; RX drops or dispatches. -/
theorem step_preserves {P : State → Prop}
    (outside : ∀ (s : State) chan sched n, P s → P { s with chan := chan, sched := sched, schedCount := n })
    (transmit : ∀ s t, P s → txStep s = .next t → P t)
    (corrupt : ∀ s, P s → P (dropCorrupt s))
    (receive : ∀ d s, P s → P (dispatch d s))
    (host : ∀ h s t, P s → hostExists s.cfg h = true → HostMoves h s t → P t)
    {s t : State} (hs : P s) (he : step s = .next t) : P t := by
  have hpick : P (consumePick s) := by
    rw [consumePick_eq]
    exact outside s s.chan _ _ hs
  obtain ⟨_, hr⟩ := step_next he
  generalize consumePick s = u at hpick hr
  have hchan (c : ChannelPort) : P { u with chan := c } := outside u c u.sched u.schedCount hpick
  rcases runAgent_next hr with htx | ⟨q, rfl⟩ | ⟨d, q, rfl⟩ | ⟨h, hx, hm⟩ | ⟨c, rfl⟩
  · exact transmit u t hpick htx
  · exact corrupt _ (hchan _)
  · exact receive d _ (hchan _)
  · exact host h u t hpick hx hm
  · exact hchan c

end Sys2Proof.Machine

/-! # The reorder windows stay aligned (O44). -/

namespace Sys2Proof.Machine

/-! ## The reorder windows (R40, R41, R233 to R236) -/

theorem WindowAligned.empty (n : Nat) (a : Addr) (e : Seq) : WindowAligned n a e (List.replicate n none) := by
  refine ⟨List.length_replicate, fun i c hc => ?_⟩
  simp [List.getElem?_replicate] at hc

/-- An entry in the window after a shift stood one slot further on before it. -/
theorem getElem?_of_shift {w : Window} {i : Nat} {c : InEntry} (h : (w.tail ++ [none])[i]? = some (some c)) :
    w[i + 1]? = some (some c) := by
  rcases Nat.lt_or_ge i w.tail.length with hi | hi
  · simpa [List.getElem?_append_left hi] using h
  · rw [List.getElem?_append_right hi, List.getElem?_singleton] at h
    split at h <;> simp at h

/-- The shift of R235: what was aligned to `e` is aligned to `e + 1`. -/
theorem WindowAligned.shift {n : Nat} {a : Addr} {e : Seq} {w : Window} (hn : 0 < n) (h : WindowAligned n a e w) :
    WindowAligned n a (e + 1) (w.tail ++ [none]) := by
  have hl := h.length
  refine ⟨by simp; omega, fun i c hc => ?_⟩
  obtain ⟨hsrc, hkind, hseq⟩ := h.slot (i + 1) c (getElem?_of_shift hc)
  refine ⟨hsrc, hkind, hseq.trans ?_⟩
  rw [BitVec.ofNat_add (i + 1) 1, add_right_comm, add_assoc e]
  rfl

theorem WindowAligned.set {n i : Nat} {a : Addr} {e : Seq} {w : Window} {c : InEntry} (h : WindowAligned n a e w)
    (src : c.src = a) (kind : c.kind = .data) (seq : c.seq = e + BitVec.ofNat 12 (i + 1)) :
    WindowAligned n a e (w.set i (some c)) := by
  refine ⟨by simpa using h.length, fun j d hd => ?_⟩
  rcases eq_or_ne i j with rfl | hij
  · obtain rfl : c = d := by
      rw [List.getElem?_set_self'] at hd
      simpa using (Option.map_eq_some_iff.1 hd).choose_spec.2
    exact ⟨src, kind, seq⟩
  · rw [List.getElem?_set_ne hij] at hd
    exact h.slot j d hd

/-- A sequence number is the expected one plus its distance from it (R12). -/
theorem add_seqDistance (n e : Seq) : e + BitVec.ofNat 12 (seqDistance n e) = n := by
  rw [seqDistance, BitVec.ofNat_toNat, BitVec.setWidth_eq, add_sub_cancel]

/-- Drain leaves the window aligned if the shift it begins with aligns it and it has fuel for every entry:
each round shifts once and expects one sequence more. -/
theorem drainLoop_aligned {slots : Nat} (hn : 0 < slots) (a : Addr) (n : Nat) (s : State)
    (hal : WindowAligned slots a (inExpAt s a) ((windowAt s a).tail ++ [none]))
    (hfuel : ∀ i c, (windowAt s a)[i]? = some (some c) → i < n) :
    WindowAligned slots a (inExpAt (drainLoop a (n + 1) s) a) (windowAt (drainLoop a (n + 1) s) a) := by
  induction n generalizing s with
  | zero =>
    rw [drainLoop_succ]
    split
    · simpa using hal
    · rename_i c hc
      rw [List.head?_eq_getElem?] at hc
      exact absurd (hfuel 0 c (Option.join_eq_some_iff.1 hc)) (lt_irrefl 0)
  | succ n ih =>
    rw [drainLoop_succ]
    split
    · simpa using hal
    · rename_i c _
      split
      · simpa using hal
      · refine ih _ (by simpa using hal.shift hn) fun i c hc => ?_
        have hi := hfuel (i + 1) c (getElem?_of_shift (by simpa using hc))
        omega

/-- What the receive invariant says of one source. -/
structure SourceAligned (s : State) (a : Addr) : Prop where
  aligned : WindowAligned s.cfg.winSlots a (inExpAt s a) (windowAt s a)
  unseen  : inSeenAt s a = false → inExpAt s a = 0#12 ∧ windowAt s a = emptyWindow s.cfg

theorem receiveInvariant_iff (s : State) : ReceiveInvariant s ↔ ∀ a, SourceAligned s a :=
  ⟨fun h a => ⟨h.aligned a, h.unseen a⟩, fun h => ⟨fun a => (h a).aligned, fun a => (h a).unseen⟩⟩

/-- A seen source is aligned when its window is. -/
theorem SourceAligned.of_seen {s : State} {a : Addr} (seen : inSeenAt s a = true)
    (h : WindowAligned s.cfg.winSlots a (inExpAt s a) (windowAt s a)) : SourceAligned s a :=
  ⟨h, fun hu => by simp [hu] at seen⟩

/-- Where the other sources are left alone, the invariant is one source's affair. -/
theorem ReceiveInvariant.of_source {a : Addr} {s t : State} (hs : ReceiveInvariant s) (hc : t.cfg = s.cfg)
    (ho : OtherSourcesKept a s t) (ha : SourceAligned t a) : ReceiveInvariant t := by
  rw [receiveInvariant_iff] at hs ⊢
  intro b
  rcases eq_or_ne b a with rfl | hb
  · exact ha
  · obtain ⟨hseen, hexp, hwin⟩ := ho.1 b hb
    obtain ⟨hal, hun⟩ := hs b
    exact ⟨by rwa [hc, hexp, hwin], by rwa [hseen, hexp, hwin, hc]⟩

/-- The invariant reads the parameters and the three per-source tables only. -/
theorem ReceiveInvariant.of_tables {s t : State} (hs : ReceiveInvariant s) (hc : t.cfg = s.cfg)
    (seen : t.rx.inSeen = s.rx.inSeen) (exp : t.rx.inExp = s.rx.inExp) (win : t.rx.win = s.rx.win) :
    ReceiveInvariant t := by
  constructor
  · intro a
    rw [hc, inExpAt_congr exp, windowAt_congr hc win]
    exact hs.aligned a
  · intro a
    rw [inSeenAt_congr seen, inExpAt_congr exp, windowAt_congr hc win, hc]
    exact hs.unseen a

theorem windowAligned_sightSource {s : State} (hs : ReceiveInvariant s) (a : Addr) :
    WindowAligned s.cfg.winSlots a (inExpAt (sightSource a s) a) (windowAt (sightSource a s) a) := by
  rw [inExpAt_sightSource, windowAt_sightSource, expectedFrom, windowFrom]
  split
  · exact hs.aligned a
  · exact .empty _ _ _

theorem receiveInvariant_sightSource {s : State} (hs : ReceiveInvariant s) (a : Addr) :
    ReceiveInvariant (sightSource a s) := by
  refine hs.of_source (sightSource_cfg a s) (otherSourcesKept_sightSource a s) (.of_seen (by simp) ?_)
  rw [sightSource_cfg]
  exact windowAligned_sightSource hs a

theorem receiveInvariant_enqueueAck {s : State} (hs : ReceiveInvariant s) (a : Addr) (n : Seq) :
    ReceiveInvariant (enqueueAck a n s) :=
  hs.of_tables (by simp) (by simp) (by simp) (by simp)

/-- The equal case (R233, R235): the frame expected is delivered and Drain realigns the window. -/
theorem receiveInvariant_acceptInOrder {e : InEntry} {s : State} (hn : 0 < s.cfg.winSlots) (hs : ReceiveInvariant s)
    (seen : inSeenAt s e.src = true) (seq : e.seq = inExpAt s e.src) : ReceiveInvariant (acceptInOrder e s) := by
  set u := setInExp e.src (e.seq + 1) (enqueueAck e.src e.seq (deliver e s)) with hu
  have hcfg : u.cfg = s.cfg := by simp [hu]
  have hwin : windowAt u e.src = windowAt s e.src := by simp [hu]
  have hexp : inExpAt u e.src = inExpAt s e.src + 1 := by simp [hu, seq]
  have hal := hs.aligned e.src
  obtain ⟨_, hseen, hother⟩ := drainLoop_grows e.src (u.cfg.winSlots + 1) u
  refine hs.of_source (a := e.src) (by simp [acceptInOrder]) ?_ (.of_seen ?_ ?_)
  · refine otherSourcesKept_trans (otherSourcesKept_trans ?_ (otherSourcesKept_setInExp e.src _ (e.seq + 1))) hother
    exact otherSourcesKept_of_rx (by simp) (by simp)
  · exact hseen.trans (by simpa [hu] using seen)
  · rw [acceptInOrder, ← hu, drain_cfg, hcfg]
    refine drainLoop_aligned hn e.src u.cfg.winSlots u ?_ fun i c hc => ?_
    · rw [hexp, hwin]
      exact hal.shift hn
    · rw [hwin] at hc
      rw [hcfg, ← hal.length]
      exact (List.getElem?_eq_some_iff.1 hc).1

/-- The ahead case (R236): the frame goes to the slot of its sequence, if the window has it. -/
theorem receiveInvariant_bufferAhead {e : InEntry} {s : State} (hs : ReceiveInvariant s)
    (seen : inSeenAt s e.src = true) (kind : e.kind = .data) (ahead : 1 ≤ seqDistance e.seq (inExpAt s e.src)) :
    ReceiveInvariant (bufferAhead e s) := by
  rcases bufferAhead_cases e s with ⟨_, h⟩ | ⟨_, h⟩ <;> rw [h]
  · refine hs.of_source (a := e.src) rfl ?_ (.of_seen (by simpa using seen) ?_)
    · exact otherSourcesKept_trans (otherSourcesKept_of_rx rfl rfl) (otherSourcesKept_setWindow e.src _ _)
    · simp only [windowAt_setWindow_same, inExpAt_setWindow, inExpAt_record, setWindow_cfg, record_cfg]
      refine (hs.aligned e.src).set rfl kind ?_
      rw [Nat.sub_add_cancel ahead, add_seqDistance]
  · exact hs.of_tables rfl rfl rfl rfl

theorem receiveInvariant_trackSequence {e : InEntry} {s : State} (hn : 0 < s.cfg.winSlots) (hs : ReceiveInvariant s)
    (kind : e.kind = .data) : ReceiveInvariant (trackSequence e s) := by
  have hsight := receiveInvariant_sightSource hs e.src
  have hseen := inSeenAt_sightSource e.src s
  rcases trackSequence_cases e s with ⟨ho, h⟩ | ⟨ho, h⟩ | ⟨_, h⟩ <;> rw [h]
  · exact receiveInvariant_acceptInOrder (by simpa using hn) hsight hseen
      (seqDistance_eq_zero.1 (seqCompare_equal.1 ho))
  · exact receiveInvariant_bufferAhead hsight hseen kind (seqCompare_ahead.1 ho).1
  · exact receiveInvariant_enqueueAck hsight _ _

theorem receiveInvariant_dispatch (d : RxFrame) {s : State} (hn : 0 < s.cfg.winSlots) (hs : ReceiveInvariant s) :
    ReceiveInvariant (dispatch d s) := by
  rcases dispatch_cases d s with
    ⟨s', _, _, _, hb, e⟩ | ⟨_, e⟩ | ⟨s', _, _, _, hb, e⟩ | ⟨_, _, _, _, e⟩ | ⟨_, _, _, e⟩ | ⟨_, e⟩ <;>
    rw [e]
  · obtain ⟨v, rfl⟩ := bcastPass_eq hb
    rw [absorbPayload_eq]
    exact hs.of_tables rfl rfl rfl rfl
  · exact hs.of_tables rfl rfl rfl rfl
  · obtain ⟨v, rfl⟩ := bcastPass_eq hb
    exact hs.of_tables rfl rfl rfl rfl
  · exact hs.of_tables rfl rfl rfl rfl
  · exact receiveInvariant_trackSequence hn hs rfl
  · exact hs

/-- R8 has W at least 2 * OQ_CAP and OQ_CAP at least 1. -/
theorem winSlots_pos {c : Config} (h : c.ok = true) : 0 < c.winSlots := by
  unfold Config.ok at h
  have h := of_decide_eq_true h
  omega

/-- Settles O44: RX realigns the window of the source it hears from, and no other agent writes a window. -/
theorem everyStepKeepsWindowsAligned : Obligations.EveryStepKeepsWindowsAligned := by
  intro s t hs he
  have hn := winSlots_pos (step_next he).1
  refine (step_preserves (P := fun s => 0 < s.cfg.winSlots ∧ ReceiveInvariant s) ?outside ?transmit ?corrupt
    ?receive ?host ⟨hn, hs⟩ he).2
  case outside => exact fun s _ _ _ ⟨hn, hs⟩ => ⟨hn, hs.of_tables rfl rfl rfl rfl⟩
  case transmit =>
    intro s t ⟨hn, hs⟩ he
    obtain ⟨hcfg, _, _, hrx, _⟩ := txStep_writes he
    exact ⟨by rwa [hcfg], hs.of_tables hcfg (by rw [hrx]) (by rw [hrx]) (by rw [hrx])⟩
  case corrupt => exact fun s ⟨hn, hs⟩ => ⟨hn, hs.of_tables rfl rfl rfl rfl⟩
  case receive =>
    intro d s ⟨hn, hs⟩
    exact ⟨by rwa [(dispatch_writes d s).cfg], receiveInvariant_dispatch d hn hs⟩
  case host =>
    intro h s t ⟨hn, hs⟩ _ hm
    have hrx := hm.rx
    exact ⟨by rwa [hm.cfg], hs.of_tables hm.cfg (by rw [hrx]) (by rw [hrx]) (by rw [hrx])⟩

end Sys2Proof.Machine

/-! # The queues stay within their capacity (O45) and the tables in their one form (O46). -/

namespace Sys2Proof.Machine

/-! ## The queues (R38, R43) -/

/-- With room left, one more entry still fits (R43). -/
theorem length_lt_of_not_full {s : State} (hf : iqFull s = false) (h : s.iq.length ≤ s.cfg.iqCap) :
    s.iq.length < s.cfg.iqCap := by
  have hne : s.iq.length ≠ s.cfg.iqCap := by simpa [iqFull] using hf
  omega

/-- Drain delivers only while IQ has room (R235). -/
theorem drainLoop_iq_length (a : Addr) (n : Nat) (s : State) (h : s.iq.length ≤ s.cfg.iqCap) :
    (drainLoop a n s).iq.length ≤ s.cfg.iqCap := by
  induction n generalizing s with
  | zero => exact h
  | succ n ih =>
    rw [drainLoop_succ]
    split
    · exact h
    · split
      · exact h
      · rename_i hf
        have hlt := length_lt_of_not_full (by simpa using hf) h
        exact ih _ (by simpa using hlt)

theorem trackSequence_iq_length {e : InEntry} {s : State} (h : s.iq.length < s.cfg.iqCap) :
    (trackSequence e s).iq.length ≤ s.cfg.iqCap := by
  rcases trackSequence_cases e s with ⟨_, he⟩ | ⟨_, he⟩ | ⟨_, he⟩ <;> rw [he]
  · have hd := drainLoop_iq_length e.src (s.cfg.winSlots + 1)
      (setInExp e.src (e.seq + 1) (enqueueAck e.src e.seq (deliver e (sightSource e.src s)))) (by simpa using h)
    simpa [acceptInOrder, drain] using hd
  · rcases bufferAhead_cases e (sightSource e.src s) with ⟨_, hb⟩ | ⟨_, hb⟩ <;> rw [hb] <;> simpa using h.le
  · simpa using h.le

/-- RX delivers only while IQ has room (R222, R225). -/
theorem dispatch_iq_length (d : RxFrame) {s : State} (h : s.iq.length ≤ s.cfg.iqCap) :
    (dispatch d s).iq.length ≤ s.cfg.iqCap := by
  rcases dispatch_cases d s with
    ⟨s', _, _, _, hb, e⟩ | ⟨_, e⟩ | ⟨s', hf, _, _, hb, e⟩ | ⟨_, _, _, _, e⟩ | ⟨hf, _, _, e⟩ | ⟨_, e⟩ <;>
    rw [e]
  · obtain ⟨v, rfl⟩ := bcastPass_eq hb
    rw [absorbPayload_eq]
    exact h
  · exact h
  · obtain ⟨v, rfl⟩ := bcastPass_eq hb
    simpa using length_lt_of_not_full hf h
  · exact h
  · exact trackSequence_iq_length (length_lt_of_not_full hf h)
  · exact h

/-- A reception puts at most one ACK in OQ, and only below the capacity with headroom (R231). -/
theorem dispatch_occupancy (d : RxFrame) (s : State) :
    occupancy (dispatch d s) ≤ max (occupancy s) (s.cfg.oqCap + s.cfg.oqHeadroom) := by
  obtain ⟨_, _, _, htx, _, hoq, _⟩ := dispatch_writes d s
  have hvalid : (dispatch d s).tx.txhValid = s.tx.txhValid := by rcases htx with e | e <;> rw [e]
  rw [occupancy_eq (dispatch d s), hvalid]
  rcases hoq with e | ⟨n, a, room, e⟩ <;> rw [e]
  · rw [occupancy_eq s]
    exact le_max_left _ _
  · rw [occupancy_eq] at room
    rw [List.length_cons]
    exact le_max_of_le_right (by omega)

/-- A host agent's move puts at most one frame in OQ, and only below the capacity SEND sees (R275). -/
theorem HostMoves.occupancy_le {h : Nat} {s t : State} (hm : HostMoves h s t) :
    occupancy t ≤ max (occupancy s) s.cfg.oqCap := by
  cases hm with
  | accept a p _ room =>
    refine le_max_of_le_right ?_
    exact (occupancy_pushBackOq (freshEntry (sendFrame s a p)) s).le.trans room
  | hold | reject | issue | complete | answer => exact le_max_left _ _

/-- A host agent's move only takes from IQ (R277). -/
theorem HostMoves.iq_length {h : Nat} {s t : State} (hm : HostMoves h s t) : t.iq.length ≤ s.iq.length := by
  cases hm with
  | complete e q front => simp [front]
  | hold | reject | accept | issue | answer => exact le_rfl

/-- Settles O45: each producer tests for room. Of the transmit unit only `TransmitEffects.occ` is needed, so
the premise R173(a) is not used. -/
theorem everyStepKeepsQueuesBounded : Obligations.EveryStepKeepsQueuesBounded := by
  intro s t _ hs he
  refine step_preserves (P := QueuesBounded) ?outside ?transmit ?corrupt ?receive ?host hs he
  case outside => exact fun s _ _ _ ⟨hout, hin⟩ => ⟨hout, hin⟩
  case transmit =>
    intro s t ⟨hout, hin⟩ he
    obtain ⟨hcfg, hiq, _, _, _⟩ := txStep_writes he
    exact ⟨by rw [hcfg]; exact (txStep_effects he).occ.trans (max_le hout le_rfl), by rwa [hcfg, hiq]⟩
  case corrupt => exact fun s ⟨hout, hin⟩ => ⟨hout, hin⟩
  case receive =>
    intro d s ⟨hout, hin⟩
    have hcfg := (dispatch_writes d s).cfg
    exact ⟨by rw [hcfg]; exact (dispatch_occupancy d s).trans (max_le hout le_rfl),
      by rw [hcfg]; exact dispatch_iq_length d hin⟩
  case host =>
    intro h s t ⟨hout, hin⟩ _ hm
    refine ⟨?_, by rw [hm.cfg]; exact hm.iq_length.trans hin⟩
    rw [hm.cfg]
    exact hm.occupancy_le.trans (max_le hout (Nat.le_add_right _ _))

/-! ## The tables (R39 to R41, R44) [log 14] -/

/-- A write at a key below the bound keeps the keys below it. -/
theorem keysBelow_tableSet {α : Type} [DecidableEq α] {n k : Nat} {t : Table α} (d : α) (v : α) (hk : k < n)
    (h : KeysBelow n t) : KeysBelow n (tableSet d t k v) := by
  intro e he
  rcases mem_tableSet he with rfl | he
  · exact hk
  · exact h e he

/-- The tables are canonical where they are those of a state in which they are. -/
theorem TablesCanonical.of_tables {s t : State} (hs : TablesCanonical s) (cfg : t.cfg = s.cfg)
    (outSeq : t.rx.outSeq = s.rx.outSeq) (inSeen : t.rx.inSeen = s.rx.inSeen) (inExp : t.rx.inExp = s.rx.inExp)
    (win : t.rx.win = s.rx.win) (hosts : t.hosts = s.hosts) : TablesCanonical t := by
  constructor
  case outSeq => rw [outSeq]; exact hs.outSeq
  case inSeen => rw [inSeen]; exact hs.inSeen
  case inExp => rw [inExp]; exact hs.inExp
  case win => rw [cfg, win]; exact hs.win
  case hosts => rw [hosts]; exact hs.hosts
  case outSeqKeys => rw [outSeq]; exact hs.outSeqKeys
  case inSeenKeys => rw [inSeen]; exact hs.inSeenKeys
  case inExpKeys => rw [inExp]; exact hs.inExpKeys
  case winKeys => rw [win]; exact hs.winKeys
  case hostKeys => rw [cfg, hosts]; exact hs.hostKeys

theorem tablesCanonical_setOutSeq {s : State} (hs : TablesCanonical s) (a : Addr) (v : Seq) :
    TablesCanonical (setOutSeq a v s) :=
  { hs with
    outSeq := tableSet_canonical _ _ _ _ hs.outSeq
    outSeqKeys := keysBelow_tableSet _ _ a.isLt hs.outSeqKeys }

theorem tablesCanonical_setInSeen {s : State} (hs : TablesCanonical s) (a : Addr) (v : Bool) :
    TablesCanonical (setInSeen a v s) :=
  { hs with
    inSeen := tableSet_canonical _ _ _ _ hs.inSeen
    inSeenKeys := keysBelow_tableSet _ _ a.isLt hs.inSeenKeys }

theorem tablesCanonical_setInExp {s : State} (hs : TablesCanonical s) (a : Addr) (v : Seq) :
    TablesCanonical (setInExp a v s) :=
  { hs with
    inExp := tableSet_canonical _ _ _ _ hs.inExp
    inExpKeys := keysBelow_tableSet _ _ a.isLt hs.inExpKeys }

theorem tablesCanonical_setWindow {s : State} (hs : TablesCanonical s) (a : Addr) (w : Window) :
    TablesCanonical (setWindow a w s) :=
  { hs with
    win := tableSet_canonical _ _ _ _ hs.win
    winKeys := keysBelow_tableSet _ _ a.isLt hs.winKeys }

/-- Only an existing agent's registers may be written (R44). -/
theorem tablesCanonical_setHost {s : State} (hs : TablesCanonical s) {h : Nat} (hx : hostExists s.cfg h = true)
    (r : HostRegs) : TablesCanonical (setHost h r s) :=
  { hs with
    hosts := tableSet_canonical _ _ _ _ hs.hosts
    hostKeys := fun e he => by
      rcases mem_tableSet he with rfl | he
      · simpa [hostExists] using hx
      · exact hs.hostKeys e he }

theorem tablesCanonical_deliver {s : State} (hs : TablesCanonical s) (e : InEntry) : TablesCanonical (deliver e s) :=
  hs.of_tables rfl rfl rfl rfl rfl rfl

theorem tablesCanonical_record {s : State} (hs : TablesCanonical s) (c : Status) : TablesCanonical (record c s) :=
  hs.of_tables rfl rfl rfl rfl rfl rfl

theorem tablesCanonical_enqueueAck {s : State} (hs : TablesCanonical s) (a : Addr) (n : Seq) :
    TablesCanonical (enqueueAck a n s) :=
  hs.of_tables (by simp) (by simp) (by simp) (by simp) (by simp) (by simp)

theorem tablesCanonical_sightSource {s : State} (hs : TablesCanonical s) (a : Addr) :
    TablesCanonical (sightSource a s) := by
  rcases sightSource_cases a s with ⟨_, e⟩ | ⟨_, e⟩ <;> rw [e]
  · exact hs
  · exact tablesCanonical_setWindow (tablesCanonical_setInExp (tablesCanonical_setInSeen hs _ _) _ _) _ _

theorem tablesCanonical_drainLoop (a : Addr) (n : Nat) {s : State} (hs : TablesCanonical s) :
    TablesCanonical (drainLoop a n s) := by
  induction n generalizing s with
  | zero => exact hs
  | succ n ih =>
    have hshift := tablesCanonical_setWindow hs a ((windowAt s a).tail ++ [none])
    rw [drainLoop_succ]
    split
    · exact hshift
    · split
      · exact tablesCanonical_record hshift _
      · exact ih (tablesCanonical_setInExp (tablesCanonical_deliver hshift _) _ _)

theorem tablesCanonical_trackSequence (e : InEntry) {s : State} (hs : TablesCanonical s) :
    TablesCanonical (trackSequence e s) := by
  have hsight := tablesCanonical_sightSource hs e.src
  rcases trackSequence_cases e s with ⟨_, h⟩ | ⟨_, h⟩ | ⟨_, h⟩ <;> rw [h]
  · refine tablesCanonical_drainLoop _ _ (tablesCanonical_setInExp ?_ _ _)
    exact tablesCanonical_enqueueAck (tablesCanonical_deliver hsight _) _ _
  · rcases bufferAhead_cases e (sightSource e.src s) with ⟨_, h⟩ | ⟨_, h⟩ <;> rw [h]
    · exact tablesCanonical_setWindow (tablesCanonical_record hsight _) _ _
    · exact tablesCanonical_record hsight _
  · exact tablesCanonical_enqueueAck hsight _ _

theorem tablesCanonical_dispatch (d : RxFrame) {s : State} (hs : TablesCanonical s) :
    TablesCanonical (dispatch d s) := by
  rcases dispatch_cases d s with
    ⟨s', _, _, _, hb, e⟩ | ⟨_, e⟩ | ⟨s', _, _, _, hb, e⟩ | ⟨_, _, _, _, e⟩ | ⟨_, _, _, e⟩ | ⟨_, e⟩ <;>
    rw [e]
  · obtain ⟨v, rfl⟩ := bcastPass_eq hb
    rw [absorbPayload_eq]
    exact hs.of_tables rfl rfl rfl rfl rfl rfl
  · exact tablesCanonical_record hs _
  · obtain ⟨v, rfl⟩ := bcastPass_eq hb
    exact hs.of_tables rfl rfl rfl rfl rfl rfl
  · exact hs.of_tables rfl rfl rfl rfl rfl rfl
  · exact tablesCanonical_trackSequence _ hs
  · exact hs

theorem tablesCanonical_hostMoves {h : Nat} {s t : State} (hs : TablesCanonical s)
    (hx : hostExists s.cfg h = true) (hm : HostMoves h s t) : TablesCanonical t := by
  have hregs (r : HostRegs) := tablesCanonical_setHost hs hx r
  cases hm with
  | hold => exact hs
  | reject c _ => exact (hregs _).of_tables rfl rfl rfl rfl rfl rfl
  | accept a p _ _ =>
    exact (tablesCanonical_setOutSeq (hregs _) a (outSeqAt s a + 1)).of_tables rfl rfl rfl rfl rfl rfl
  | issue => exact hregs _
  | complete e q _ => exact (hregs _).of_tables rfl rfl rfl rfl rfl rfl
  | answer => exact (hregs _).of_tables rfl rfl rfl rfl rfl rfl

/-- Settles O46: every table write goes through `tableSet` at a 16-bit address or at an existing agent. -/
theorem everyStepKeepsTablesCanonical : Obligations.EveryStepKeepsTablesCanonical := by
  intro s t hs he
  refine step_preserves (P := TablesCanonical) ?outside ?transmit ?corrupt ?receive ?host hs he
  case outside => exact fun s _ _ _ hs => hs.of_tables rfl rfl rfl rfl rfl rfl
  case transmit =>
    intro s t hs he
    obtain ⟨hcfg, _, hhosts, hrx, _⟩ := txStep_writes he
    rcases (txStep_effects he).outSeq with hseq | ⟨a, v, hseq⟩
    · exact hs.of_tables hcfg hseq (by rw [hrx]) (by rw [hrx]) (by rw [hrx]) hhosts
    · exact (tablesCanonical_setOutSeq hs a v).of_tables hcfg hseq (by rw [hrx]; rfl) (by rw [hrx]; rfl)
        (by rw [hrx]; rfl) hhosts
  case corrupt => exact fun s hs => tablesCanonical_record hs _
  case receive => exact fun d s hs => tablesCanonical_dispatch d hs
  case host => exact fun h s t hs hx hm => tablesCanonical_hostMoves hs hx hm

end Sys2Proof.Machine

/-! # LAST_EVENT (O47), a host agent's reach (O18), OFFSET (O50), the channel inputs (O60) and reset (O41, O42). -/

namespace Sys2Proof.Machine

/-! ## LAST_EVENT (R29, R300) -/

/-- Every code of the status taxonomy is in the range of LAST_EVENT (R300). -/
theorem statusCode_range (c : Status) : 1 ≤ (statusCode c).toNat ∧ (statusCode c).toNat ≤ 10 := by
  cases c <;> decide

theorem statusLegal_record (c : Status) (s : State) : StatusLegal (record c s) := statusCode_range c

theorem StatusLegal.of_event {s t : State} (hs : StatusLegal s) (h : t.cp.lastEvent = s.cp.lastEvent) :
    StatusLegal t := by
  unfold StatusLegal
  rw [h]
  exact hs

theorem statusLegal_drainLoop (a : Addr) (n : Nat) {s : State} (hs : StatusLegal s) :
    StatusLegal (drainLoop a n s) := by
  induction n generalizing s with
  | zero => exact hs
  | succ n ih =>
    rw [drainLoop_succ]
    split
    · exact hs.of_event rfl
    · split
      · exact statusLegal_record _ _
      · exact ih (hs.of_event rfl)

theorem statusLegal_trackSequence (e : InEntry) {s : State} (hs : StatusLegal s) :
    StatusLegal (trackSequence e s) := by
  rcases trackSequence_cases e s with ⟨_, h⟩ | ⟨_, h⟩ | ⟨_, h⟩ <;> rw [h]
  · exact statusLegal_drainLoop _ _ (hs.of_event (by simp))
  · have hr := statusLegal_record .unspecifiedError (sightSource e.src s)
    rcases bufferAhead_cases e (sightSource e.src s) with ⟨_, h⟩ | ⟨_, h⟩ <;> rw [h]
    · exact hr.of_event rfl
    · exact hr
  · exact hs.of_event (by simp)

theorem statusLegal_dispatch (d : RxFrame) {s : State} (hs : StatusLegal s) : StatusLegal (dispatch d s) := by
  rcases dispatch_cases d s with
    ⟨s', _, _, _, hb, e⟩ | ⟨_, e⟩ | ⟨s', _, _, _, hb, e⟩ | ⟨_, _, _, _, e⟩ | ⟨_, _, _, e⟩ | ⟨_, e⟩ <;>
    rw [e]
  · obtain ⟨v, rfl⟩ := bcastPass_eq hb
    rw [absorbPayload_eq]
    exact hs.of_event rfl
  · exact statusLegal_record _ _
  · obtain ⟨v, rfl⟩ := bcastPass_eq hb
    exact hs.of_event rfl
  · exact hs.of_event rfl
  · exact statusLegal_trackSequence _ hs
  · exact hs

/-- Settles O47: LAST_EVENT is written by `record` alone, whose codes are those of R300. -/
theorem everyStepKeepsStatusLegal : Obligations.EveryStepKeepsStatusLegal := by
  intro s t hs he
  refine step_preserves (P := StatusLegal) ?outside ?transmit ?corrupt ?receive ?host hs he
  case outside => exact fun s _ _ _ hs => hs.of_event rfl
  case transmit =>
    intro s t hs he
    rcases (txStep_effects he).event with h | h | h
    · exact hs.of_event h
    · exact (statusLegal_record .txDelivered s).of_event h
    · exact (statusLegal_record .txFailed s).of_event h
  case corrupt => exact fun s _ => statusLegal_record _ s
  case receive => exact fun d s hs => statusLegal_dispatch d hs
  case host =>
    intro h s t hs _ hm
    cases hm with
    | reject c _ => exact (statusLegal_record c s).of_event rfl
    | hold | accept | issue | complete | answer => exact hs.of_event rfl

/-! ## What a host agent reaches (R32, R61, R302) -/

/-- OQ grows at its back by an accepted SEND alone (R274). -/
theorem HostMoves.oq {h : Nat} {s t : State} (hm : HostMoves h s t) : t.oq = s.oq ∨ ∃ e, t.oq = s.oq ++ [e] := by
  cases hm with
  | accept a p => exact .inr ⟨_, rfl⟩
  | hold | reject | issue | complete | answer => exact .inl rfl

/-- IQ loses its front to a completed RECV alone (R277). -/
theorem HostMoves.iq {h : Nat} {s t : State} (hm : HostMoves h s t) : t.iq = s.iq ∨ ∃ e, s.iq = e :: t.iq := by
  cases hm with
  | complete e q front => exact .inr ⟨e, front⟩
  | hold | reject | accept | issue | answer => exact .inl rfl

/-- A host agent records rejections only (R302). -/
theorem HostMoves.event {h : Nat} {s t : State} (hm : HostMoves h s t) :
    t.cp.lastEvent = s.cp.lastEvent ∨ t.cp.lastEvent = 6#8 ∨ t.cp.lastEvent = 9#8 ∨ t.cp.lastEvent = 10#8 := by
  cases hm with
  | reject c code =>
    rcases code with rfl | rfl | rfl
    · exact .inr (.inl rfl)
    · exact .inr (.inr (.inr rfl))
    · exact .inr (.inr (.inl rfl))
  | hold | accept | issue | complete | answer => exact .inl rfl

/-- Settles O18: an agent that holds moves as a RECV that waits, and each move has its frame. -/
theorem hostReachesOnlyItsRegisters : Obligations.HostReachesOnlyItsRegisters := by
  intro h k s t he
  have hm : HostMoves h s t := by
    rcases he.elim hostStep_moves completeStep_moves with rfl | ⟨_, hm⟩
    · exact .hold
    · exact hm
  exact ⟨hm.frame, hm.oq, hm.iq, hm.event⟩

/-! ## OFFSET (R22, R141, R150) -/

theorem trackSequence_offset (e : InEntry) (s : State) : (trackSequence e s).cp.offset = s.cp.offset := by
  rcases trackSequence_cases e s with ⟨_, h⟩ | ⟨_, h⟩ | ⟨_, h⟩ <;> rw [h]
  · rw [acceptInOrder, drain, drainLoop_cp]
    simp
  · rcases bufferAhead_cases e (sightSource e.src s) with ⟨_, h⟩ | ⟨_, h⟩ <;> simp [h]
  · simp

/-- A greater timestamp raises OFFSET, where CHAN_CLOCK + OFFSET does not wrap (R141). -/
theorem offset_le_absorbPayload (p : Bytes) {s : State} (hw : s.chan.clock.toNat + s.cp.offset.toNat < 2 ^ 64) :
    s.cp.offset.toNat ≤ (absorbPayload p s).cp.offset.toNat := by
  rcases absorbPayload_cases p s with e | ⟨_, hlt, e⟩ <;> rw [e]
  generalize rdBE64 p 0 = remote at hlt ⊢
  have hnow : (now s).toNat = s.chan.clock.toNat + s.cp.offset.toNat := by
    rw [now, BitVec.toNat_add, Nat.mod_eq_of_lt hw]
  have hr := remote.isLt
  rw [BitVec.lt_def] at hlt
  simp only [BitVec.toNat_add, BitVec.toNat_sub, hnow]
  omega

/-- Of the outcomes of a dispatch, the absorbed beacon alone writes OFFSET (R224). -/
theorem offset_le_dispatch (d : RxFrame) {s : State} (hw : s.chan.clock.toNat + s.cp.offset.toNat < 2 ^ 64) :
    s.cp.offset.toNat ≤ (dispatch d s).cp.offset.toNat := by
  rcases dispatch_cases d s with
    ⟨s', _, _, _, hb, e⟩ | ⟨_, e⟩ | ⟨s', _, _, _, hb, e⟩ | ⟨_, _, _, _, e⟩ | ⟨_, _, _, e⟩ | ⟨_, e⟩ <;>
    rw [e]
  · obtain ⟨v, rfl⟩ := bcastPass_eq hb
    exact offset_le_absorbPayload d.payload (s := setBcExp v s) hw
  · exact le_rfl
  · obtain ⟨v, rfl⟩ := bcastPass_eq hb
    exact le_rfl
  · exact le_rfl
  · rw [trackSequence_offset]

/-- Settles O50: RX raises OFFSET by an absorbed beacon, and no other agent writes it. -/
theorem offsetNeverDecreases : Obligations.OffsetNeverDecreases := by
  intro s t hw he
  obtain ⟨_, hr⟩ := step_next he
  rw [← consumePick_chan s, ← consumePick_cp s] at hw
  rw [← consumePick_cp s]
  generalize consumePick s = u at hr hw
  rcases runAgent_next hr with htx | ⟨q, rfl⟩ | ⟨d, q, rfl⟩ | ⟨h, _, hm⟩ | ⟨c, rfl⟩
  · rw [(txStep_effects htx).cp]
  · exact le_rfl
  · exact offset_le_dispatch d (s := { u with chan := { u.chan with rxq := q } }) hw
  · rw [hm.frame]
  · exact le_rfl

/-! ## The channel inputs (R45, R46, R220, R221) -/

/-- RX takes the oldest byte string off CHAN_RXQ and writes nothing else of the channel port (R221). -/
theorem rxStep_chan {s t : State} (h : rxStep s = .next t) :
    t.chan = { s.chan with rxq := s.chan.rxq.tail } := by
  rcases rxStep_next h with ⟨hq, rfl⟩ | ⟨b, q, hq, rfl | ⟨d, rfl⟩⟩
  · rw [hq, List.tail_nil, ← hq]
  · rw [hq]
    rfl
  · rw [dispatch_chan, hq]
    rfl

/-- What a step of the agent picked does to the channel port, but for CHAN_TXLOG. -/
theorem runAgent_chan {a : AgentStep} {s t : State} (h : runAgent a s = .next t) :
    (t.chan.clock = s.chan.clock ∨ ∃ d, a = .tick d)
    ∧ (t.chan.busy = s.chan.busy ∨ ∃ b, a = .busy b)
    ∧ (t.chan.idleTime = s.chan.idleTime ∨ ∃ d, a = .idleTime d)
    ∧ (a = .rx → t.chan.rxq = s.chan.rxq.tail)
    ∧ (a ≠ .rx → t.chan.rxq = s.chan.rxq ∨ ∃ b, a = .arrive b) := by
  cases a with
  | tx =>
    rw [(txStep_writes h).chan]
    simp
  | rx =>
    rw [rxStep_chan h]
    simp
  | host g k =>
    rw [(hostStep_writes h).chan]
    simp
  | complete g =>
    rw [(completeStep_writes h).chan]
    simp
  | tick | busy | arrive | idleTime =>
    cases h
    simp

theorem step_of_pick {s : State} {a : AgentStep} (hok : s.cfg.ok = true) (hp : nextStep s = a) :
    step s = runAgent a (consumePick s) := by
  rw [step_of_ok hok, hp]

/-- Settles O60: the environment's steps are `runAgent`'s arms, and `runAgent_chan` has every other writer. -/
theorem channelInputsHaveTheirWriters : Obligations.ChannelInputsHaveTheirWriters := by
  refine fun s => ⟨consumePick_eq s, fun hok => ⟨?tick, ?busy, ?arrive, ?idle, ?hold⟩, fun t he => ?writers⟩
  case tick =>
    intro d hp
    rw [step_of_pick hok hp, ← consumePick_chan s]
    rfl
  case busy =>
    intro b hp
    rw [step_of_pick hok hp, ← consumePick_chan s]
    rfl
  case arrive =>
    intro b hp
    rw [step_of_pick hok hp, ← consumePick_chan s]
    rfl
  case idle =>
    intro d hp
    rw [step_of_pick hok hp, ← consumePick_chan s]
    rfl
  case hold =>
    intro hp hq
    rw [← consumePick_chan s] at hq
    rw [step_of_pick hok hp, runAgent, rxStep, hq]
  case writers =>
    rw [← consumePick_chan s]
    exact runAgent_chan (step_next he).2

/-! ## Reset (R49, R330) -/

/-- Settles O41: the tables are empty after reset, so every read gives its default. -/
theorem resetLeavesSpecValues : Obligations.ResetLeavesSpecValues := by
  intro c clock busy
  refine ⟨rfl, rfl, rfl, rfl, rfl, rfl, rfl, rfl, rfl, rfl, rfl, fun a => ?_, fun h => rfl, rfl, rfl, rfl, rfl, rfl⟩
  exact ⟨rfl, rfl, rfl, rfl⟩

theorem tableCanonical_nil {α : Type} (d : α) : TableCanonical d ([] : Table α) :=
  ⟨.nil, fun _ he => absurd he List.not_mem_nil⟩

theorem tablesCanonical_reset (c : Config) (clock : Time) (busy : Bool) :
    TablesCanonical (State.resetWith c clock busy) where
  outSeq     := tableCanonical_nil _
  inSeen     := tableCanonical_nil _
  inExp      := tableCanonical_nil _
  win        := tableCanonical_nil _
  hosts      := tableCanonical_nil _
  outSeqKeys := fun _ he => absurd he List.not_mem_nil
  inSeenKeys := fun _ he => absurd he List.not_mem_nil
  inExpKeys  := fun _ he => absurd he List.not_mem_nil
  winKeys    := fun _ he => absurd he List.not_mem_nil
  hostKeys   := fun _ he => absurd he List.not_mem_nil

/-- No frame is in flight after reset, so the clauses about one hold of none. -/
theorem transmitInvariant_reset (c : Config) (clock : Time) (busy : Bool) :
    TransmitInvariant (State.resetWith c clock busy) where
  headValid      := rfl
  headKind       := fun h => absurd h Bool.false_ne_true
  ackrValid      := rfl
  windowAtRest   := fun _ => rfl
  windowRange    := ⟨le_rfl, le_max_left 1 c.cwMax⟩
  backoffRange   := Nat.zero_le _
  windowGrowth   := fun h => absurd h Bool.false_ne_true
  retryRange     := fun h => absurd h Bool.false_ne_true
  retryBit       := fun h => absurd h Bool.false_ne_true
  waitsUnicast   := fun h => absurd h Bool.false_ne_true
  retriedUnicast := fun h => absurd h Bool.false_ne_true
  queuedFresh    := fun _ he => absurd he List.not_mem_nil
  slotCounts     := nofun
  pausedNeeds    := nofun
  stateUsed      := nofun

theorem receiveInvariant_reset (c : Config) (clock : Time) (busy : Bool) :
    ReceiveInvariant (State.resetWith c clock busy) where
  aligned := fun a => WindowAligned.empty c.winSlots a 0#12
  unseen  := fun _ _ => ⟨rfl, rfl⟩

theorem framesShaped_reset (c : Config) (clock : Time) (busy : Bool) :
    FramesShaped (State.resetWith c clock busy) where
  queued := fun _ he => absurd he List.not_mem_nil
  head   := fun h => absurd h Bool.false_ne_true
  ackr   := fun h => absurd h Bool.false_ne_true
  sent   := fun _ hb => absurd hb List.not_mem_nil

/-- Settles O42: empty tables and queues, an idle transmit unit and LAST_EVENT 1 meet every invariant. -/
theorem resetMeetsEveryInvariant : Obligations.ResetMeetsEveryInvariant := by
  intro c clock busy _
  exact {
    tables   := tablesCanonical_reset c clock busy
    queues   := ⟨Nat.zero_le _, Nat.zero_le _⟩
    status   := statusLegal_record .success (State.resetWith c clock busy)
    transmit := transmitInvariant_reset c clock busy
    receive  := receiveInvariant_reset c clock busy
    frames   := framesShaped_reset c clock busy }

end Sys2Proof.Machine

/-! # DEBUG is read by no rule (O57). -/

namespace Sys2Proof.Machine

/-- DEBUG <- v (R30, R284). -/
def setDebug (v : Word32) (s : State) : State := { s with cp := { s.cp with debug := v } }

@[simp] theorem setDebug_cfg (v : Word32) (s : State) : (setDebug v s).cfg = s.cfg := rfl
@[simp] theorem setDebug_cp (v : Word32) (s : State) : (setDebug v s).cp = { s.cp with debug := v } := rfl
@[simp] theorem setDebug_tx (v : Word32) (s : State) : (setDebug v s).tx = s.tx := rfl
@[simp] theorem setDebug_oq (v : Word32) (s : State) : (setDebug v s).oq = s.oq := rfl
@[simp] theorem setDebug_rx (v : Word32) (s : State) : (setDebug v s).rx = s.rx := rfl
@[simp] theorem setDebug_iq (v : Word32) (s : State) : (setDebug v s).iq = s.iq := rfl
@[simp] theorem setDebug_hosts (v : Word32) (s : State) : (setDebug v s).hosts = s.hosts := rfl
@[simp] theorem setDebug_chan (v : Word32) (s : State) : (setDebug v s).chan = s.chan := rfl
@[simp] theorem setDebug_sched (v : Word32) (s : State) : (setDebug v s).sched = s.sched := rfl
@[simp] theorem setDebug_schedCount (v : Word32) (s : State) : (setDebug v s).schedCount = s.schedCount := rfl
@[simp] theorem setDebug_drawCount (v : Word32) (s : State) : (setDebug v s).drawCount = s.drawCount := rfl

/-- An operation that neither reads nor writes DEBUG. -/
def DebugBlind (f : State → State) : Prop := ∀ v s, f (setDebug v s) = setDebug v (f s)

namespace DebugBlind

theorem id : DebugBlind fun s => s := fun _ _ => rfl

theorem comp {f g : State → State} (hf : DebugBlind f) (hg : DebugBlind g) : DebugBlind fun s => f (g s) :=
  fun v s => (congrArg f (hg v s)).trans (hf v (g s))

/-- A branch on a condition that does not read DEBUG. -/
theorem ite {c : State → Prop} [DecidablePred c] {f g : State → State} (hf : DebugBlind f) (hg : DebugBlind g)
    (hc : ∀ v s, c (setDebug v s) ↔ c s := by exact fun _ _ => Iff.rfl) :
    DebugBlind fun s => if c s then f s else g s := by
  intro v s
  simp only [hc v s]
  split
  · exact hf v s
  · exact hg v s

/-- Record updates that copy DEBUG along. -/
theorem of_rfl {f : State → State} (h : ∀ v s, f (setDebug v s) = setDebug v (f s) := by exact fun _ _ => rfl) :
    DebugBlind f := h

end DebugBlind

/-! ## The transmit unit -/

theorem reloadBackoff_debugBlind : DebugBlind reloadBackoff := .ite .of_rfl .of_rfl

theorem insertBeacon_debugBlind (ts : Bytes) : DebugBlind (insertBeacon ts) := .ite .of_rfl .id

theorem beaconCheck_debugBlind : DebugBlind beaconCheck := by
  intro v s
  have hdue : beaconDue (setDebug v s) = beaconDue s := rfl
  rcases beaconCheck_cases s with ⟨hs, e⟩ | ⟨hs, e⟩ <;>
    rcases beaconCheck_cases (setDebug v s) with ⟨hv, e'⟩ | ⟨hv, e'⟩ <;> rw [e, e']
  · rw [hdue, hs] at hv
    exact absurd hv Bool.false_ne_true
  · rw [hdue, hs] at hv
    exact absurd hv.symm Bool.false_ne_true
  · exact insertBeacon_debugBlind _ v (removeBeacons { s with cp := { s.cp with lastBeacon := now s } })

theorem initialCheck_debugBlind : DebugBlind initialCheck := .ite .of_rfl .of_rfl

theorem serveQueue_debugBlind : DebugBlind serveQueue := by
  intro v s
  simp only [serveQueue, setDebug_oq]
  split
  · rfl
  · rename_i e q _
    split
    · rfl
    · exact initialCheck_debugBlind v (loadHead e q s)

theorem enterBackoff_debugBlind : DebugBlind enterBackoff := .ite .of_rfl .of_rfl

theorem txDifsWait_debugBlind : DebugBlind txDifsWait :=
  .ite .of_rfl (.ite (.ite enterBackoff_debugBlind .of_rfl) .id)

theorem txBackoffSlot_debugBlind : DebugBlind txBackoffSlot :=
  .ite .of_rfl (.ite (.comp enterBackoff_debugBlind .of_rfl) .id)

theorem fireAndForget_debugBlind : DebugBlind fireAndForget :=
  .comp (f := reloadBackoff) reloadBackoff_debugBlind (.comp (f := resolveHead) .of_rfl (.ite .of_rfl .id))

theorem txTransmit_debugBlind : DebugBlind txTransmit :=
  .ite .of_rfl (.comp fireAndForget_debugBlind .of_rfl)

theorem headDelivered_debugBlind : DebugBlind headDelivered :=
  .comp (f := reloadBackoff) reloadBackoff_debugBlind .of_rfl

theorem headFailed_debugBlind : DebugBlind headFailed :=
  .comp (f := reloadBackoff) reloadBackoff_debugBlind .of_rfl

theorem headTimedOut_debugBlind : DebugBlind headTimedOut :=
  .comp (f := fun s => waitForIdle (markRetry s)) .of_rfl (.comp reloadBackoff_debugBlind .of_rfl)

theorem serveAckWhileWaiting_debugBlind : DebugBlind serveAckWhileWaiting := by
  intro v s
  simp only [serveAckWhileWaiting, setDebug_oq]
  split
  · rfl
  · split <;> rfl

theorem txAwaitAck_debugBlind : DebugBlind txAwaitAck :=
  .ite headDelivered_debugBlind
    (.ite headFailed_debugBlind (.ite headTimedOut_debugBlind serveAckWhileWaiting_debugBlind))

theorem txWaitChannelIdle_debugBlind : DebugBlind txWaitChannelIdle := .ite .id .of_rfl

theorem txSendAckSifs_debugBlind : DebugBlind txSendAckSifs := .ite (.ite .of_rfl .id) (.ite .id .of_rfl)

/-! ## The receive unit -/

theorem enqueueAck_debugBlind (a : Addr) (n : Seq) : DebugBlind (enqueueAck a n) := .ite .of_rfl .id

theorem sightSource_debugBlind (a : Addr) : DebugBlind (sightSource a) := .ite .id .of_rfl

theorem drainLoop_debugBlind (a : Addr) (n : Nat) : DebugBlind (drainLoop a n) := by
  induction n with
  | zero => exact .id
  | succ n ih =>
    intro v s
    have hwin : windowAt (setDebug v s) a = windowAt s a := rfl
    have hfull : iqFull (setDebug v s) = iqFull s := rfl
    simp only [drainLoop_succ, hwin, hfull]
    split
    · rfl
    · rename_i c _
      split
      · rfl
      · exact ih v (setInExp a (inExpAt s a + 1) (deliver c (setWindow a ((windowAt s a).tail ++ [none]) s)))

theorem acceptInOrder_debugBlind (e : InEntry) : DebugBlind (acceptInOrder e) := by
  have h : DebugBlind fun s => setInExp e.src (e.seq + 1) (enqueueAck e.src e.seq (deliver e s)) :=
    .comp (f := setInExp e.src (e.seq + 1)) .of_rfl (.comp (enqueueAck_debugBlind e.src e.seq) .of_rfl)
  intro v s
  exact (congrArg (drain e.src) (h v s)).trans (drainLoop_debugBlind e.src _ v _)

theorem bufferAhead_debugBlind (e : InEntry) : DebugBlind (bufferAhead e) := .ite .of_rfl .of_rfl

theorem trackSequence_debugBlind (e : InEntry) : DebugBlind (trackSequence e) := by
  intro v s
  have hexp : inExpAt (setDebug v (sightSource e.src s)) e.src = inExpAt (sightSource e.src s) e.src := rfl
  simp only [trackSequence, sightSource_debugBlind e.src v s, hexp]
  split
  · exact acceptInOrder_debugBlind e v _
  · exact bufferAhead_debugBlind e v _
  · exact enqueueAck_debugBlind _ _ v _

theorem absorbPayload_debugBlind (p : Bytes) : DebugBlind (absorbPayload p) := .ite (.ite .of_rfl .id) .id

/-- The broadcast filter passes the same frames whatever DEBUG holds. -/
theorem bcastPass_setDebug (n : Seq) (v : Word32) (s : State) :
    bcastPass n (setDebug v s) = (bcastPass n s).map (setDebug v) := by
  simp only [bcastPass, setDebug_rx]
  split <;> rfl

theorem dispatchRoom_debugBlind (d : RxFrame) : DebugBlind (dispatchRoom d) := by
  have hrest : DebugBlind fun s => if isMine s.cfg d.dest ∧ d.kind = .ack ∧ ackMatch d s then markAcked s
      else if isMine s.cfg d.dest ∧ d.kind = .data then trackSequence (dataEntry d) s else s :=
    .ite .of_rfl (.ite (trackSequence_debugBlind _) .id)
  intro v s
  by_cases hc : d.kind = .data ∧ isBroadcast d.dest
  · simp only [dispatchRoom, if_pos hc, bcastPass_setDebug]
    cases bcastPass d.seq s with
    | some s' => rfl
    | none => exact hrest v s
  · simp only [dispatchRoom, if_neg hc]
    exact hrest v s

theorem dispatch_debugBlind (d : RxFrame) : DebugBlind (dispatch d) := by
  have hrest : DebugBlind fun s => if iqFull s then record .insufficientBufferSpace s else dispatchRoom d s :=
    .ite .of_rfl (dispatchRoom_debugBlind d)
  intro v s
  by_cases hc : d.kind = .beacon ∧ isBroadcast d.dest ∧ s.cp.beaconEn
  · have hc' : d.kind = .beacon ∧ isBroadcast d.dest ∧ (setDebug v s).cp.beaconEn := hc
    simp only [dispatch, if_pos hc, if_pos hc', bcastPass_setDebug]
    cases bcastPass d.seq s with
    | some s' => exact absorbPayload_debugBlind _ v s'
    | none => exact hrest v s
  · have hc' : ¬ (d.kind = .beacon ∧ isBroadcast d.dest ∧ (setDebug v s).cp.beaconEn) := hc
    simp only [dispatch, if_neg hc, if_neg hc']
    exact hrest v s

/-! ## The agents -/

/-- An agent's step whose outcomes, of two states that differ in DEBUG alone, differ at most in DEBUG. -/
def StepDebugBlind (f : State → Host.Outcome State Fault Refusal) : Prop :=
  ∀ v s t, f s = .next t → ∃ w, f (setDebug v s) = .next (setDebug w t)

theorem DebugBlind.next {f : State → State} (hf : DebugBlind f) : StepDebugBlind fun s => .next (f s) := by
  intro v s t h
  cases h
  exact ⟨v, congrArg _ (hf v s)⟩

theorem StepDebugBlind.ite {c : State → Prop} [DecidablePred c] {f g : State → Host.Outcome State Fault Refusal}
    (hf : StepDebugBlind f) (hg : StepDebugBlind g)
    (hc : ∀ v s, c (setDebug v s) ↔ c s := by exact fun _ _ => Iff.rfl) :
    StepDebugBlind fun s => if c s then f s else g s := by
  intro v s t h
  simp only [hc v s] at h ⊢
  split at h
  · rw [if_pos ‹_›]
    exact hf v s t h
  · rw [if_neg ‹_›]
    exact hg v s t h

theorem txStep_debugBlind : StepDebugBlind txStep := by
  intro v s t h
  unfold txStep at h ⊢
  rw [setDebug_tx]
  cases hs : s.tx.state <;> simp only [hs] at h ⊢
  case idle => exact (DebugBlind.comp serveQueue_debugBlind beaconCheck_debugBlind).next v s t h
  case difsWait => exact txDifsWait_debugBlind.next v s t h
  case backoffSlot => exact txBackoffSlot_debugBlind.next v s t h
  case transmit => exact txTransmit_debugBlind.next v s t h
  case awaitAck => exact txAwaitAck_debugBlind.next v s t h
  case waitChannelIdle => exact txWaitChannelIdle_debugBlind.next v s t h
  case sendAckSifs => exact txSendAckSifs_debugBlind.next v s t h
  case unused => cases h

/-- No instruction's meaning reads DEBUG; CMD.DEBUG alone writes it, whatever it held before (R284). -/
theorem exec_debugBlind (i : Instr) : StepDebugBlind (exec i) := by
  cases i with
  | data => exact (dispatch_debugBlind _).next
  | ack => exact (dispatch_debugBlind _).next
  | beacon => exact (dispatch_debugBlind _).next
  | send h a p => exact DebugBlind.next (.ite .of_rfl (.ite .of_rfl .of_rfl))
  | recv h =>
    refine DebugBlind.next fun v s => ?_
    have hhost : hostAt (setDebug v s) h = hostAt s h := rfl
    simp only [hhost, setDebug_iq]
    split
    · split <;> rfl
    · rfl
  | status h => exact DebugBlind.next .of_rfl
  | cmdHelp h => exact DebugBlind.next .of_rfl
  | cmdDebug h value =>
    intro v s t he
    cases he
    exact ⟨value, rfl⟩
  | cmdSlotsel h value => exact DebugBlind.next .of_rfl
  | cmdBeacon h value =>
    exact DebugBlind.next (.comp (f := setResult h 0#32) .of_rfl (.ite .of_rfl .of_rfl))

theorem rxFrame_debugBlind (b : Bytes) : StepDebugBlind (rxFrame b) := by
  intro v s t h
  simp only [rxFrame, setDebug_cfg] at h ⊢
  split at h
  · exact exec_debugBlind _ v s t h
  · rename_i r _
    have hreject : DebugBlind (rxReject r) := by
      cases r with
      | corruptFrame => exact .of_rfl
      | reservedKind d => exact dispatch_debugBlind d
      | illegalWord => exact .id
    exact hreject.next v s t h

theorem rxStep_debugBlind : StepDebugBlind rxStep := by
  intro v s t h
  simp only [rxStep, setDebug_chan] at h ⊢
  split at h
  · exact DebugBlind.id.next v s t h
  · exact rxFrame_debugBlind _ v _ t h

theorem hostStep_debugBlind (h : Nat) (k : HostCommand) : StepDebugBlind (hostStep h k) := by
  refine .ite ?_ DebugBlind.id.next
  cases decodeHost h k with
  | ok i => exact exec_debugBlind i
  | error r => exact DebugBlind.next (f := illegalWord h) .of_rfl

theorem completeStep_debugBlind (h : Nat) : StepDebugBlind (completeStep h) :=
  .ite (exec_debugBlind (.recv h)) DebugBlind.id.next

theorem runAgent_debugBlind (a : AgentStep) : StepDebugBlind (runAgent a) := by
  cases a with
  | tx => exact txStep_debugBlind
  | rx => exact rxStep_debugBlind
  | host h k => exact hostStep_debugBlind h k
  | complete h => exact completeStep_debugBlind h
  | tick d => exact DebugBlind.next .of_rfl
  | busy b => exact DebugBlind.next .of_rfl
  | arrive b => exact DebugBlind.next .of_rfl
  | idleTime d => exact DebugBlind.next .of_rfl

theorem consumePick_debugBlind : DebugBlind consumePick := by
  intro v s
  simp only [consumePick, setDebug_sched]
  split <;> rfl

/-- Settles O57: the pick is the same, and no agent's step reads DEBUG. -/
theorem debugIsReadByNoRule : Obligations.DebugIsReadByNoRule := by
  intro s t v he
  obtain ⟨hok, hr⟩ := step_next he
  obtain ⟨w, hw⟩ := runAgent_debugBlind (nextStep s) v (consumePick s) t hr
  refine ⟨setDebug w t, ?_, rfl⟩
  calc step (setDebug v s) = runAgent (nextStep s) (consumePick (setDebug v s)) := step_of_ok hok
    _ = runAgent (nextStep s) (setDebug v (consumePick s)) := by rw [consumePick_debugBlind]
    _ = .next (setDebug w t) := hw

end Sys2Proof.Machine

/-! # Who writes the tracker (O49) and CHAN_TXLOG (O53). -/

namespace Sys2Proof.Machine

/-! ## The sequence tracker and the broadcast filter (R72) -/

/-- An agent other than RX writes at most OUT_SEQ of the tables that RX keeps. -/
theorem runAgent_rx_of_ne {a : AgentStep} {s t : State} (h : runAgent a s = .next t) (ha : a ≠ .rx) :
    t.rx = { s.rx with outSeq := t.rx.outSeq } := by
  cases a with
  | tx => exact (txStep_writes h).rx
  | rx => exact absurd rfl ha
  | host g k =>
    rcases hostStep_moves h with rfl | ⟨_, hm⟩
    · rfl
    · exact hm.rx
  | complete g =>
    rcases completeStep_moves h with rfl | ⟨_, hm⟩
    · rfl
    · exact hm.rx
  | tick | busy | arrive | idleTime =>
    cases h
    rfl

/-- Settles O49: using up the pick leaves the tables, and so does every agent but RX. -/
theorem onlyReceiveWritesTracker : Obligations.OnlyReceiveWritesTracker := by
  intro s t he hp
  obtain ⟨_, hr⟩ := step_next he
  rw [← consumePick_rx s]
  exact runAgent_rx_of_ne hr hp

/-! ## CHAN_TXLOG (R65, R72, R73) -/

theorem txIdle_chan (s : State) : (txIdle s).chan = s.chan := by
  rw [txIdle]
  rcases serveQueue_cases (beaconCheck s) with
    ⟨_, e⟩ | ⟨x, q, _, _, e⟩ | ⟨x, q, _, _, _, e⟩ | ⟨x, q, _, _, _, e⟩ <;> simp [e]

theorem enterBackoff_chan (s : State) : (enterBackoff s).chan = s.chan := by
  rcases enterBackoff_cases s with ⟨_, e⟩ | ⟨_, e⟩ <;> simp [e]

theorem txDifsWait_chan (s : State) : (txDifsWait s).chan = s.chan := by
  unfold txDifsWait
  split_ifs
  · exact waitForIdle_chan s
  · exact enterBackoff_chan s
  · exact toTransmit_chan s
  · rfl

theorem txBackoffSlot_chan (s : State) : (txBackoffSlot s).chan = s.chan := by
  unfold txBackoffSlot
  split_ifs
  · rfl
  · exact enterBackoff_chan (countSlot s)
  · rfl

theorem fireAndForget_chan (s : State) : (fireAndForget s).chan = s.chan := by
  unfold fireAndForget
  split <;> simp

/-- TRANSMIT hands the in-flight frame to the channel, whichever way it goes on (R188). -/
theorem txTransmit_chan (s : State) : (txTransmit s).chan = (chanTransmit (encodeFrame s.tx.txh.frame) s).chan := by
  unfold txTransmit
  dsimp only
  split
  · exact beginAckWait_chan _
  · exact fireAndForget_chan _

theorem txAwaitAck_chan (s : State) : (txAwaitAck s).chan = s.chan := by
  unfold txAwaitAck
  split_ifs
  · simp [headDelivered]
  · simp [headFailed]
  · simp [headTimedOut]
  · rcases serveAckWhileWaiting_cases s with e | ⟨x, q, _, _, e⟩ <;> simp [e]

theorem txWaitChannelIdle_chan (s : State) : (txWaitChannelIdle s).chan = s.chan := by
  unfold txWaitChannelIdle
  split
  · rfl
  · exact enterDifsWait_chan s

/-- SEND_ACK_SIFS sends the latched ACK when the SIFS has passed, and else leaves the channel (R201 to R203). -/
theorem txSendAckSifs_chan (s : State) :
    (txSendAckSifs s).chan = s.chan ∨ (txSendAckSifs s).chan = (chanTransmit (encodeFrame s.tx.ackr) s).chan := by
  unfold txSendAckSifs
  split_ifs
  · exact .inr (sendAck_chan s)
  · exact .inl rfl
  · exact .inl rfl
  · exact .inl (startSifs_chan s)

/-- What a TX step does to the channel port: nothing, or one ChanTransmit of the head or of the latched ACK. -/
theorem txStep_chan {s t : State} (h : txStep s = .next t) :
    t.chan = s.chan
    ∨ (s.tx.state = .transmit ∧ t.chan = (chanTransmit (encodeFrame s.tx.txh.frame) s).chan)
    ∨ (s.tx.state = .sendAckSifs ∧ t.chan = (chanTransmit (encodeFrame s.tx.ackr) s).chan) := by
  rcases txStep_next h with
    ⟨_, rfl⟩ | ⟨_, rfl⟩ | ⟨_, rfl⟩ | ⟨hs, rfl⟩ | ⟨_, rfl⟩ | ⟨_, rfl⟩ | ⟨hs, rfl⟩
  · exact .inl (txIdle_chan s)
  · exact .inl (txDifsWait_chan s)
  · exact .inl (txBackoffSlot_chan s)
  · exact .inr (.inl ⟨hs, txTransmit_chan s⟩)
  · exact .inl (txAwaitAck_chan s)
  · exact .inl (txWaitChannelIdle_chan s)
  · exact (txSendAckSifs_chan s).imp_right fun e => .inr ⟨hs, e⟩

/-- CHAN_TXLOG is TX's alone (R72). -/
theorem runAgent_txlog_of_ne {a : AgentStep} {s t : State} (h : runAgent a s = .next t) (ha : a ≠ .tx) :
    t.chan.txlog = s.chan.txlog := by
  cases a with
  | tx => exact absurd rfl ha
  | rx => rw [rxStep_chan h]
  | host g k => rw [(hostStep_writes h).chan]
  | complete g => rw [(completeStep_writes h).chan]
  | tick | busy | arrive | idleTime =>
    cases h
    rfl

/-- Settles O53: a TX step makes at most one ChanTransmit, and no other agent writes CHAN_TXLOG. -/
theorem transmitLogGrowsOnlyByTransmit : Obligations.TransmitLogGrowsOnlyByTransmit := by
  intro s t he
  obtain ⟨_, hr⟩ := step_next he
  rw [← consumePick_chan s, ← consumePick_tx s]
  by_cases hp : nextStep s = .tx
  · rw [hp] at hr
    rcases txStep_chan hr with e | ⟨hs, e⟩ | ⟨hs, e⟩ <;> rw [e]
    · exact .inl rfl
    · exact .inr ⟨hp, .inl ⟨hs, rfl⟩⟩
    · exact .inr ⟨hp, .inr ⟨hs, rfl⟩⟩
  · exact .inl (runAgent_txlog_of_ne hr hp)

end Sys2Proof.Machine

/-! # Decode inverts encode (O2), and words and byte strings written out decode (O7). -/

namespace Sys2Proof

/-! ## A sealed body read back (R81, R112, R114) -/

/-- The bytes before the trailer are the body. -/
theorem sealBody_take (b : Bytes) : (sealBody b).take ((sealBody b).length - 4) = b := by
  rw [sealBody_length, Nat.add_sub_cancel, sealBody, List.take_left]

/-- The last four bytes are the checksum of those before them. -/
theorem rdBE32_trailer (b : Bytes) : rdBE32 (sealBody b) ((sealBody b).length - 4) = crc32 b := by
  calc rdBE32 (sealBody b) ((sealBody b).length - 4)
      = rdBE32 (b ++ be32 (crc32 b)) (b.length + 0) := by rw [sealBody_length]; rfl
    _ = rdBE32 (be32 (crc32 b) ++ []) 0 := by rw [rdBE32_append, List.append_nil]
    _ = crc32 b := rdBE32_be32 _ _

theorem rdBE16_ctl (ctl : BitVec 16) (d a : Addr) (p : Bytes) :
    rdBE16 (sealBody (frameBody ctl d a p)) 0 = ctl := by
  simp [sealBody, frameBody, List.append_assoc]

theorem rdBE16_dest (ctl : BitVec 16) (d a : Addr) (p : Bytes) :
    rdBE16 (sealBody (frameBody ctl d a p)) 2 = d := by
  simpa [sealBody, frameBody, List.append_assoc] using
    rdBE16_append (be16 ctl) (be16 d ++ (be16 a ++ (p ++ be32 (crc32 (frameBody ctl d a p))))) 0

theorem rdBE16_src (ctl : BitVec 16) (d a : Addr) (p : Bytes) :
    rdBE16 (sealBody (frameBody ctl d a p)) 4 = a := by
  simpa [sealBody, frameBody, List.append_assoc] using
    rdBE16_append (be16 ctl ++ be16 d) (be16 a ++ (p ++ be32 (crc32 (frameBody ctl d a p)))) 0

/-- DECODE of a sealed body, whatever its control word: within the length bounds of R85 it is Ok, with the
fields the body was packed from. -/
theorem decodeBytes_sealBody {c : Config} {p : Bytes} (ctl : BitVec 16) (d a : Addr)
    (hc : c.maxFrame = c.maxPayload + 10) (hp : p.length ≤ c.maxPayload) :
    decodeBytes c (sealBody (frameBody ctl d a p))
      = .ok ⟨kindOf (ctlKind ctl), ctlRetry ctl, ctlSeq ctl, d, a, p⟩ := by
  have hlen : ¬ ((sealBody (frameBody ctl d a p)).length < 10
      ∨ c.maxFrame < (sealBody (frameBody ctl d a p)).length) := by
    rw [sealBody_length, frameBody_length]
    omega
  have hpayload : (frameBody ctl d a p).drop 6 = p :=
    List.drop_left (l₁ := be16 ctl ++ be16 d ++ be16 a)
  unfold decodeBytes
  dsimp only
  rw [if_neg hlen, sealBody_take, rdBE32_trailer, if_neg (not_not_intro rfl), rdBE16_ctl, rdBE16_dest,
    rdBE16_src, hpayload]

/-- DECODE inverts ENCODE on every frame within bounds (R116). -/
theorem decodeBytes_encodeFrame {c : Config} {f : Frame} (hc : c.maxFrame = c.maxPayload + 10)
    (hp : f.payload.length ≤ c.maxPayload) :
    decodeBytes c (encodeFrame f) = .ok ⟨rxKindOf f.kind, f.retry, f.seq, f.dest, f.src, f.payload⟩ := by
  rw [encodeFrame, decodeBytes_sealBody _ _ _ hc hp, ctlKind_packCtl, kindOf_kindCode, ctlRetry_packCtl,
    ctlSeq_packCtl]

/-- The instruction that a received frame of one of the three kinds is (R121 to R123). -/
theorem decodeFrame_encodeFrame {c : Config} {f : Frame} (hc : c.maxFrame = c.maxPayload + 10)
    (hp : f.payload.length ≤ c.maxPayload) :
    decodeFrame c (encodeFrame f) = instrOfFrame ⟨rxKindOf f.kind, f.retry, f.seq, f.dest, f.src, f.payload⟩ := by
  rw [decodeFrame, decodeBytes_encodeFrame hc hp]

/-! ## A command word read back (R88, R271) -/

/-- The host decode of a packed word reads the word's three fields and nothing else of it. -/
theorem decodeHost_packWord (h : Nat) (o k : BitVec 8) (a : Addr) (v : Word32) (p : Bytes) :
    decodeHost h ⟨packWord o k a, v, p⟩
      = if o = 0x01#8 then .ok (.send h a p)
        else if o = 0x02#8 then .ok (.recv h)
        else if o = 0x03#8 then .ok (.status h)
        else if o = 0x04#8 then
          if k = 0x00#8 then .ok (.cmdHelp h)
          else if k = 0x01#8 then .ok (.cmdDebug h v)
          else if k = 0x02#8 then .ok (.cmdSlotsel h v)
          else if k = 0x03#8 then .ok (.cmdBeacon h v)
          else .error .illegalWord
        else .error .illegalWord := by
  simp only [decodeHost, cwOp_packWord, cwCode_packWord, cwAddr_packWord]

/-- Settles O2: a frame row by the frame codec's round trip, a host row by the fields of its command word. -/
theorem decodeInvertsEncodeOnInstructions : Obligations.DecodeInvertsEncodeOnInstructions := by
  intro c i hc hw
  have fits {p : Bytes} (hp : payloadFits c p = true) : p.length ≤ c.maxPayload := of_decide_eq_true hp
  cases i with
  | data r n d a p => exact decodeFrame_encodeFrame hc (fits hw)
  | ack r n d a p => exact decodeFrame_encodeFrame hc (fits hw)
  | beacon r n d a p => exact decodeFrame_encodeFrame hc (fits hw)
  | send h a p => exact decodeHost_packWord h 0x01#8 0x00#8 a 0#32 p
  | recv h => exact decodeHost_packWord h 0x02#8 0x00#8 0#16 0#32 []
  | status h => exact decodeHost_packWord h 0x03#8 0x00#8 0#16 0#32 []
  | cmdHelp h => exact decodeHost_packWord h 0x04#8 0x00#8 0#16 0#32 []
  | cmdDebug h v => exact decodeHost_packWord h 0x04#8 0x01#8 0#16 v []
  | cmdSlotsel h v => exact decodeHost_packWord h 0x04#8 0x02#8 0#16 v []
  | cmdBeacon h v => exact decodeHost_packWord h 0x04#8 0x03#8 0#16 v []

/-! ## The words of the opcode table [log 13] -/

/-- A 16-bit table word is a control word: its kind, retry and seq fields give the instruction. -/
theorem decodeTableWord_frame {w : Nat} (hw : w < 2 ^ 16) :
    decodeTableWord 16 w
      = (instrOfFrame ⟨kindOf (ctlKind (BitVec.ofNat 16 w)), ctlRetry (BitVec.ofNat 16 w),
          ctlSeq (BitVec.ofNat 16 w), 0#16, 0#16, []⟩).toOption := by
  have hl : layTableWord 16 w = some (.frame (sealBody (frameBody (BitVec.ofNat 16 w) 0#16 0#16 []))) :=
    if_pos ⟨rfl, hw⟩
  have hd := decodeBytes_sealBody (c := Config.reference) (p := []) (BitVec.ofNat 16 w) 0#16 0#16 rfl (Nat.zero_le _)
  simp only [decodeTableWord, hl, decode, decodeFrame, hd]

/-- V2 of 95_test_vectors.md is ACK(0, 0, 0x0001, 0x0002). -/
theorem encodeFrame_v2 :
    encodeFrame ⟨.ack, false, 0#12, 1#16, 2#16, []⟩
      = [0x20, 0x00, 0x00, 0x01, 0x00, 0x02, 0x59, 0xA2, 0xAF, 0x8E] := by decide +kernel

/-- V4 of 95_test_vectors.md is DATA(1, 0xABC, 0xFFFF, 0x1234, "hi"). -/
theorem encodeFrame_v4 :
    encodeFrame ⟨.data, true, 0xABC#12, 0xFFFF#16, 0x1234#16, [0x68, 0x69]⟩
      = [0x1A, 0xBC, 0xFF, 0xFF, 0x12, 0x34, 0x68, 0x69, 0x01, 0x14, 0x51, 0x15] := by decide +kernel

/-- Settles O7: a frame word by its control fields, a command word by evaluating the host decode, a vector by the
codec's round trip from the frame it encodes. -/
theorem writtenOutWordsDecode : Obligations.WrittenOutWordsDecode := by
  refine ⟨?_, ?_, ?_, ?_, by decide, by decide, by decide, by decide, ?_, ?_⟩
  · rw [decodeTableWord_frame (by decide)]
    rfl
  · rw [decodeTableWord_frame (by decide)]
    rfl
  · rw [decodeTableWord_frame (by decide)]
    rfl
  · rw [decodeTableWord_frame (by decide)]
    rfl
  · rw [← encodeFrame_v2, decodeFrame_encodeFrame rfl (by decide)]
    rfl
  · rw [← encodeFrame_v4, decodeFrame_encodeFrame rfl (by decide)]
    rfl

end Sys2Proof

/-! # Frames keep the forms of R86 (O48). -/

namespace Sys2Proof.Machine

/-! ## The frames the block builds (R86) -/

/-- What SEND queues is a DATA frame of R86 where the payload fits (R274). -/
theorem frameShaped_sendFrame {s : State} (d : Addr) {p : Bytes} (hp : p.length ≤ s.cfg.maxPayload) :
    frameShaped s.cfg (sendFrame s d p) = true := by
  simp [frameShaped, sendFrame, hp]

/-- What MAKEACK builds is an ACK frame of R86 (R120). -/
theorem frameShaped_makeAck (c : Config) (n : Seq) (a : Addr) : frameShaped c (makeAck c n a) = true := by
  simp [frameShaped, makeAck]

/-- What the beacon check builds is a beacon of R86 (R147, R176). -/
theorem frameShaped_beaconFrame (s : State) (ts : Time) : frameShaped s.cfg (beaconFrame s (be64 ts)) = true := by
  simp [frameShaped, beaconFrame, isBroadcast]

/-- Setting the retry bit keeps the form of the one kind that may carry it, unicast DATA (R86, R195). -/
theorem frameShaped_retry {c : Config} {f : Frame} (hf : frameShaped c f = true) (hu : isUnicastData f = true) :
    frameShaped c { f with retry := true } = true := by
  obtain ⟨hkind, hdest⟩ : f.kind = .data ∧ isBroadcast f.dest = false := by simpa [isUnicastData] using hu
  simp only [frameShaped, hkind, Bool.and_eq_true] at hf ⊢
  obtain ⟨hsrc, hlen, _⟩ := hf
  exact ⟨hsrc, hlen, by simp [hdest]⟩

/-! ## The frames the station holds

CHAN_TXLOG apart, which `transmitLogGrowsOnlyByTransmit` settles, `FramesShaped` speaks of OQ and the transmit
unit alone. -/

/-- `FramesShaped` without CHAN_TXLOG. -/
structure HeldFramesShaped (s : State) : Prop where
  queued : ∀ e ∈ s.oq, frameShaped s.cfg e.frame = true
  head   : s.tx.txhValid = true → frameShaped s.cfg s.tx.txh.frame = true
  ackr   : s.tx.ackrValid = true → frameShaped s.cfg s.tx.ackr = true ∧ s.tx.ackr.kind = .ack

theorem FramesShaped.held {s : State} (h : FramesShaped s) : HeldFramesShaped s := ⟨h.queued, h.head, h.ackr⟩

namespace HeldFramesShaped

/-- The parameters, OQ and the transmit unit are all it reads. -/
theorem of_eq {s t : State} (hs : HeldFramesShaped s) (cfg : t.cfg = s.cfg) (oq : t.oq = s.oq) (tx : t.tx = s.tx) :
    HeldFramesShaped t := by
  obtain ⟨hq, hh, ha⟩ := hs
  exact ⟨by rwa [cfg, oq], by rwa [cfg, tx], by rwa [cfg, tx]⟩

/-- An entry pushed or removed concerns OQ only. -/
theorem of_oq {s t : State} (hs : HeldFramesShaped s) (cfg : t.cfg = s.cfg) (tx : t.tx = s.tx)
    (oq : ∀ e ∈ t.oq, e ∈ s.oq ∨ frameShaped s.cfg e.frame = true) : HeldFramesShaped t := by
  obtain ⟨hq, hh, ha⟩ := hs
  refine ⟨fun e he => ?_, by rwa [cfg, tx], by rwa [cfg, tx]⟩
  rw [cfg]
  exact (oq e he).elim (hq e) id

/-! ### The transmit unit's operations -/

theorem after_reloadBackoff {s : State} (hs : HeldFramesShaped s) : HeldFramesShaped (reloadBackoff s) :=
  hs.of_eq (by simp) (by simp) (by simp)

theorem after_waitForIdle {s : State} (hs : HeldFramesShaped s) : HeldFramesShaped (waitForIdle s) :=
  ⟨hs.queued, hs.head, hs.ackr⟩

theorem after_enterDifsWait {s : State} (hs : HeldFramesShaped s) : HeldFramesShaped (enterDifsWait s) :=
  ⟨hs.queued, hs.head, hs.ackr⟩

theorem after_toTransmit {s : State} (hs : HeldFramesShaped s) : HeldFramesShaped (toTransmit s) :=
  ⟨hs.queued, hs.head, hs.ackr⟩

theorem after_startSlot {s : State} (hs : HeldFramesShaped s) : HeldFramesShaped (startSlot s) :=
  ⟨hs.queued, hs.head, hs.ackr⟩

/-- The head is resolved: nothing is claimed of TXH any more. -/
theorem after_resolveHead {s : State} (hs : HeldFramesShaped s) : HeldFramesShaped (resolveHead s) :=
  ⟨hs.queued, nofun, hs.ackr⟩

/-- The ACK latched is the front of OQ (R200). -/
theorem after_enterAckPath {s : State} {e : OutEntry} {q : List OutEntry} (ret : Bool) (hs : HeldFramesShaped s)
    (hq : s.oq = e :: q) (hk : e.frame.kind = .ack) : HeldFramesShaped (enterAckPath ret e q s) := by
  obtain ⟨he, hrest⟩ := List.forall_mem_cons.1 (hq ▸ hs.queued)
  exact ⟨hrest, hs.head, fun _ => ⟨he, hk⟩⟩

/-- The head loaded is the front of OQ (R179). -/
theorem after_loadHead {s : State} {e : OutEntry} {q : List OutEntry} (hs : HeldFramesShaped s)
    (hq : s.oq = e :: q) : HeldFramesShaped (loadHead e q s) := by
  obtain ⟨he, hrest⟩ := List.forall_mem_cons.1 (hq ▸ hs.queued)
  exact ⟨hrest, fun _ => he, hs.ackr⟩

/-- Coalescing removes entries, and what is inserted is a beacon (R175, R176). -/
theorem after_beaconCheck {s : State} (hs : HeldFramesShaped s) : HeldFramesShaped (beaconCheck s) := by
  rcases beaconCheck_cases s with ⟨_, e⟩ | ⟨_, e⟩ <;> rw [e]
  · exact hs
  · have hrem : HeldFramesShaped (removeBeacons { s with cp := { s.cp with lastBeacon := now s } }) :=
      hs.of_oq rfl rfl fun e he => .inl (List.mem_filter.1 he).1
    rcases insertBeacon_cases (be64 (now s)) (removeBeacons { s with cp := { s.cp with lastBeacon := now s } }) with
      ⟨_, e⟩ | ⟨_, e⟩ <;> rw [e]
    · refine hrem.of_oq rfl rfl fun e he => ?_
      rcases List.mem_cons.1 he with rfl | he
      · exact .inr (frameShaped_beaconFrame _ _)
      · exact .inl he
    · exact hrem

theorem after_serveQueue {s : State} (hs : HeldFramesShaped s) : HeldFramesShaped (serveQueue s) := by
  rcases serveQueue_cases s with ⟨_, e⟩ | ⟨x, q, hq, hk, e⟩ | ⟨x, q, hq, _, _, e⟩ | ⟨x, q, hq, _, _, e⟩ <;> rw [e]
  · exact hs
  · exact hs.after_enterAckPath false hq hk
  · exact (hs.after_loadHead hq).after_waitForIdle
  · exact (hs.after_loadHead hq).after_enterDifsWait

theorem after_enterBackoff {s : State} (hs : HeldFramesShaped s) : HeldFramesShaped (enterBackoff s) := by
  rcases enterBackoff_cases s with ⟨_, e⟩ | ⟨_, e⟩ <;> rw [e]
  · exact hs.after_toTransmit
  · exact hs.after_startSlot

theorem after_txDifsWait {s : State} (hs : HeldFramesShaped s) : HeldFramesShaped (txDifsWait s) := by
  unfold txDifsWait
  split_ifs
  · exact hs.after_waitForIdle
  · exact hs.after_enterBackoff
  · exact hs.after_toTransmit
  · exact hs

theorem after_txBackoffSlot {s : State} (hs : HeldFramesShaped s) : HeldFramesShaped (txBackoffSlot s) := by
  unfold txBackoffSlot
  split_ifs
  · exact ⟨hs.queued, hs.head, hs.ackr⟩
  · exact (hs.of_eq (countSlot_cfg s) (countSlot_oq s) (countSlot_tx s)).after_enterBackoff
  · exact hs

theorem after_txTransmit {s : State} (hs : HeldFramesShaped s) : HeldFramesShaped (txTransmit s) := by
  unfold txTransmit fireAndForget
  dsimp only
  split_ifs
  · exact ⟨hs.queued, hs.head, hs.ackr⟩
  · exact (hs.of_eq (t := record _ (chanTransmit _ s)) rfl rfl rfl).after_resolveHead.after_reloadBackoff
  · exact (hs.of_eq (t := chanTransmit _ s) rfl rfl rfl).after_resolveHead.after_reloadBackoff

theorem after_headDelivered {s : State} (hs : HeldFramesShaped s) : HeldFramesShaped (headDelivered s) := by
  have hr : HeldFramesShaped (resolveHead (record .txDelivered s)) :=
    (hs.of_eq (record_cfg _ s) (record_oq _ s) (record_tx _ s)).after_resolveHead
  exact (hr.of_eq (resetWindow_cfg _) (resetWindow_oq _) (resetWindow_tx _)).after_reloadBackoff

/-- A failed head takes its peer's entries with it (R193). -/
theorem after_headFailed {s : State} (hs : HeldFramesShaped s) : HeldFramesShaped (headFailed s) := by
  refine after_reloadBackoff (hs.after_resolveHead.of_oq rfl rfl fun e he => ?_)
  exact .inl (List.mem_filter.1 he).1

/-- The one change of a held frame: a head that awaits its ACK gets its retry bit, and it is unicast DATA (R195). -/
theorem after_headTimedOut {s : State} (hs : HeldFramesShaped s) (hu : isUnicastData s.tx.txh.frame = true) :
    HeldFramesShaped (headTimedOut s) := by
  have hd : HeldFramesShaped (reloadBackoff (doubleWindow s)) :=
    after_reloadBackoff (hs.of_eq (doubleWindow_cfg s) (doubleWindow_oq s) (doubleWindow_tx s))
  have htx : (reloadBackoff (doubleWindow s)).tx = s.tx := by simp
  exact ⟨hd.queued, fun hv => frameShaped_retry (hd.head hv) (by rwa [htx]), hd.ackr⟩

theorem after_txAwaitAck {s : State} (hs : HeldFramesShaped s) (hu : isUnicastData s.tx.txh.frame = true) :
    HeldFramesShaped (txAwaitAck s) := by
  unfold txAwaitAck
  split_ifs
  · exact hs.after_headDelivered
  · exact hs.after_headFailed
  · exact hs.after_headTimedOut hu
  · rcases serveAckWhileWaiting_cases s with e | ⟨x, q, hq, hk, e⟩ <;> rw [e]
    · exact hs
    · exact hs.after_enterAckPath true hq hk

theorem after_txWaitChannelIdle {s : State} (hs : HeldFramesShaped s) : HeldFramesShaped (txWaitChannelIdle s) := by
  unfold txWaitChannelIdle
  split_ifs
  · exact hs
  · exact hs.after_enterDifsWait

/-- Once the ACK is sent nothing is claimed of ACKR any more (R203). -/
theorem after_txSendAckSifs {s : State} (hs : HeldFramesShaped s) : HeldFramesShaped (txSendAckSifs s) := by
  unfold txSendAckSifs
  split_ifs
  · exact ⟨hs.queued, hs.head, nofun⟩
  · exact hs
  · exact hs
  · exact ⟨hs.queued, hs.head, hs.ackr⟩

theorem after_txStep {s t : State} (hs : HeldFramesShaped s)
    (hu : s.tx.state = .awaitAck → isUnicastData s.tx.txh.frame = true) (h : txStep s = .next t) :
    HeldFramesShaped t := by
  rcases txStep_next h with
    ⟨_, rfl⟩ | ⟨_, rfl⟩ | ⟨_, rfl⟩ | ⟨_, rfl⟩ | ⟨hst, rfl⟩ | ⟨_, rfl⟩ | ⟨_, rfl⟩
  · exact hs.after_beaconCheck.after_serveQueue
  · exact hs.after_txDifsWait
  · exact hs.after_txBackoffSlot
  · exact hs.after_txTransmit
  · exact hs.after_txAwaitAck (hu hst)
  · exact hs.after_txWaitChannelIdle
  · exact hs.after_txSendAckSifs

/-! ### RX and the host agents -/

/-- RX queues ACKs and marks the head as acked; it builds no other frame (R227, R231). -/
theorem after_dispatch {s : State} (d : RxFrame) (hs : HeldFramesShaped s) : HeldFramesShaped (dispatch d s) := by
  obtain ⟨hcfg, _, _, htx, _, hoq, _⟩ := dispatch_writes d s
  obtain ⟨hqueued, hhead, hackr⟩ := hs
  refine ⟨?_, ?_, ?_⟩
  · rw [hcfg]
    rcases hoq with e | ⟨n, a, _, e⟩ <;> rw [e]
    · exact hqueued
    · exact List.forall_mem_cons.2 ⟨frameShaped_makeAck s.cfg n a, hqueued⟩
  · rw [hcfg]
    rcases htx with e | e <;> rw [e] <;> exact hhead
  · rw [hcfg]
    rcases htx with e | e <;> rw [e] <;> exact hackr

/-- A host agent queues what an accepted SEND builds, and no other frame (R274). -/
theorem after_hostMoves {h : Nat} {s t : State} (hs : HeldFramesShaped s) (hm : HostMoves h s t) :
    HeldFramesShaped t := by
  cases hm with
  | accept a p fits room =>
    refine hs.of_oq rfl rfl fun e he => ?_
    rcases List.mem_append.1 he with he | he
    · exact .inl he
    · rw [List.mem_singleton.1 he]
      exact .inr (frameShaped_sendFrame a fits)
  | hold | reject | issue | complete | answer => exact hs.of_eq rfl rfl rfl

/-- Every step of every agent keeps them; only the retry bit needs R173's premise. -/
theorem after_step {s t : State} (hs : HeldFramesShaped s)
    (hu : s.tx.state = .awaitAck → isUnicastData s.tx.txh.frame = true) (h : step s = .next t) :
    HeldFramesShaped t := by
  obtain ⟨_, hr⟩ := step_next h
  have hpick : HeldFramesShaped (consumePick s) := hs.of_eq (by simp) (by simp) (by simp)
  rcases runAgent_next hr with htx | ⟨q, rfl⟩ | ⟨d, q, rfl⟩ | ⟨g, _, hm⟩ | ⟨c, rfl⟩
  · exact hpick.after_txStep (by rwa [consumePick_tx]) htx
  · exact hpick.of_eq rfl rfl rfl
  · refine after_dispatch d (hpick.of_eq ?_ ?_ ?_) <;> rfl
  · exact hpick.after_hostMoves hm
  · exact hpick.of_eq rfl rfl rfl

end HeldFramesShaped

/-! ## The frames sent (R65, R73) -/

/-- In TRANSMIT the head is in flight, so it has its form (R173(a)). -/
theorem FramesShaped.head_of_transmit {s : State} (hi : TransmitInvariant s) (hs : FramesShaped s)
    (h : s.tx.state = .transmit) : frameShaped s.cfg s.tx.txh.frame = true := by
  refine hs.head (hi.headValid.trans ?_)
  rw [headInFlight, h]

/-- In SEND_ACK_SIFS the latched ACK is valid, so it has its form (R173(c)). -/
theorem FramesShaped.ackr_of_sendAckSifs {s : State} (hi : TransmitInvariant s) (hs : FramesShaped s)
    (h : s.tx.state = .sendAckSifs) : frameShaped s.cfg s.tx.ackr = true :=
  (hs.ackr (hi.ackrValid.trans (decide_eq_true h))).1

/-- No step writes the parameters (R332). -/
theorem step_cfg {s t : State} (h : step s = .next t) : t.cfg = s.cfg :=
  step_preserves (P := fun u => u.cfg = s.cfg) (fun _ _ _ _ hc => hc)
    (fun _ _ hc he => (txStep_writes he).cfg.trans hc) (fun _ hc => hc)
    (fun d u hc => (dispatch_writes d u).cfg.trans hc) (fun _ _ _ hc _ hm => hm.cfg.trans hc) rfl h

/-- Settles O48: what a step queues or loads has a form of R86, only a unicast DATA head is marked as a retry, and
what a step sends is the head or the latched ACK. -/
theorem everyStepKeepsFramesShaped : Obligations.EveryStepKeepsFramesShaped := by
  intro s t hi hs he
  have hu (h : s.tx.state = .awaitAck) : isUnicastData s.tx.txh.frame = true :=
    hi.waitsUnicast (by rw [awaitingAck, h])
  obtain ⟨hqueued, hhead, hackr⟩ := hs.held.after_step hu he
  refine ⟨hqueued, hhead, hackr, ?_⟩
  have hcfg : t.cfg = s.cfg := step_cfg he
  have hsent (f : Frame) (hf : frameShaped s.cfg f = true) (hl : t.chan.txlog = s.chan.txlog ++ [encodeFrame f]) :
      ∀ b ∈ t.chan.txlog, ∃ f, frameShaped s.cfg f = true ∧ b = encodeFrame f := by
    rw [hl]
    exact List.forall_mem_append.2 ⟨hs.sent, List.forall_mem_singleton.2 ⟨f, hf, rfl⟩⟩
  rw [hcfg]
  rcases transmitLogGrowsOnlyByTransmit s t he with e | ⟨_, ⟨hst, e⟩ | ⟨hst, e⟩⟩
  · rw [e]
    exact hs.sent
  · exact hsent _ (hs.head_of_transmit hi hst) e
  · exact hsent _ (hs.ackr_of_sendAckSifs hi hst) e

end Sys2Proof.Machine

/-! # The frame codec of 40_frame_codec.md: the round trip (O1), one flipped bit (O3), reserved kinds (O5) and
the Corrupt verdict (O4). -/

namespace Sys2Proof

/-- Settles O1: a frame is a sealed body, whose trailer, control word and fields DECODE reads back. -/
theorem decodeInvertsEncodeOnFrames : Obligations.DecodeInvertsEncodeOnFrames :=
  fun _ _ hc hp => decodeBytes_encodeFrame hc hp

/-! ## The CRC register loses nothing (R111) -/

/-- The reversed polynomial has its top bit set and a shifted register has not, so the top bit of the result
tells which branch was taken. -/
theorem crcBit_getLsbD_top (c : BitVec 32) : (crcBit c).getLsbD 31 = c.getLsbD 0 := by
  have hshift : (c >>> 1).getLsbD 31 = false := by simp
  unfold crcBit
  cases h : c.getLsbD 0 with
  | false => exact hshift
  | true =>
    rw [if_pos rfl, BitVec.getLsbD_xor, hshift]
    decide

theorem crcBit_injective : Function.Injective crcBit := by
  intro c d h
  have hlow : c.getLsbD 0 = d.getLsbD 0 := by
    rw [← crcBit_getLsbD_top, ← crcBit_getLsbD_top, h]
  have hrest : c >>> 1 = d >>> 1 := by
    simp only [crcBit, hlow] at h
    split at h
    · exact (BitVec.xor_left_inj _).1 h
    · exact h
  apply BitVec.eq_of_getLsbD_eq
  intro i _
  cases i with
  | zero => exact hlow
  | succ i => simpa [Nat.add_comm] using congrArg (BitVec.getLsbD · i) hrest

theorem crcBits_injective (n : Nat) : Function.Injective (crcBits n) := by
  induction n with
  | zero => exact fun _ _ h => h
  | succ n ih => exact ih.comp crcBit_injective

/-- For a fixed message byte, the register before is determined by the register after. -/
theorem crcByte_left_injective (x : Byte) : Function.Injective (crcByte · x) :=
  fun _ _ h => (BitVec.xor_left_inj _).1 (crcBits_injective 8 h)

/-- For a fixed register before, the message byte is determined by the register after. -/
theorem crcByte_right_injective (c : BitVec 32) : Function.Injective (crcByte c) := by
  intro x y h
  have hwide : x.setWidth 32 = y.setWidth 32 := (BitVec.xor_right_inj _).1 (crcBits_injective 8 h)
  simpa using congrArg (BitVec.setWidth 8) hwide

theorem crcRun_injective (b : Bytes) : Function.Injective (crcRun · b) := by
  induction b with
  | nil => exact fun _ _ h => h
  | cons x b ih => exact ih.comp (crcByte_left_injective x)

/-- Two messages that differ in one byte at most, and leave the same register, agree in that byte too. -/
theorem byteAt_eq_of_crcRun_set {b : Bytes} {i : Nat} {x : Byte} (hi : i < b.length) (c : BitVec 32)
    (h : crcRun c (b.set i x) = crcRun c b) : x = byteAt b i := by
  induction b generalizing c i with
  | nil => exact absurd hi (Nat.not_lt_zero i)
  | cons y b ih =>
    cases i with
    | zero => exact crcByte_right_injective c (crcRun_injective b h)
    | succ i => exact ih (Nat.lt_of_succ_lt_succ hi) (crcByte c y) h

/-- A change of one byte changes the checksum. -/
theorem crc32_set_ne {b : Bytes} {i : Nat} {x : Byte} (hi : i < b.length) (hx : x ≠ byteAt b i) :
    crc32 (b.set i x) ≠ crc32 b :=
  fun h => hx (byteAt_eq_of_crcRun_set hi _ ((BitVec.xor_left_inj _).1 h))

/-! ## Reads of a byte string with one byte changed (R9) -/

theorem byteAt_set_self {b : Bytes} {i : Nat} (x : Byte) (hi : i < b.length) : byteAt (b.set i x) i = x := by
  simp [byteAt, hi]

theorem byteAt_set_of_ne (b : Bytes) {i k : Nat} (x : Byte) (h : i ≠ k) : byteAt (b.set i x) k = byteAt b k := by
  simp [byteAt, List.getElem?_set_ne h]

theorem byteAt_take (b : Bytes) {i n : Nat} (h : i < n) : byteAt (b.take n) i = byteAt b i := by
  simp [byteAt, List.getElem?_take_of_lt h]

theorem bitVec_append_inj {v w : Nat} {x x' : BitVec v} {y y' : BitVec w} :
    x ++ y = x' ++ y' ↔ x = x' ∧ y = y' := by
  refine ⟨fun h => ?_, fun ⟨hx, hy⟩ => by rw [hx, hy]⟩
  have hy : y = y' := by
    rw [← BitVec.setWidth_append_eq_right (a := x) (b := y), h, BitVec.setWidth_append_eq_right]
  subst hy
  exact ⟨(BitVec.append_left_inj y).1 h, rfl⟩

theorem rdBE16_eq_iff {a b : Bytes} {k : Nat} :
    rdBE16 a k = rdBE16 b k ↔ byteAt a k = byteAt b k ∧ byteAt a (k + 1) = byteAt b (k + 1) :=
  bitVec_append_inj

/-- Two 32-bit reads agree exactly where their four bytes do. -/
theorem rdBE32_eq_iff {a b : Bytes} {k : Nat} :
    rdBE32 a k = rdBE32 b k ↔ ∀ j < 4, byteAt a (k + j) = byteAt b (k + j) := by
  have hhalves : rdBE32 a k = rdBE32 b k ↔ rdBE16 a k = rdBE16 b k ∧ rdBE16 a (k + 2) = rdBE16 b (k + 2) :=
    bitVec_append_inj
  rw [hhalves, rdBE16_eq_iff, rdBE16_eq_iff]
  simp only [Nat.forall_lt_succ_right, Nat.not_lt_zero, false_imp_iff, implies_true, true_and, and_assoc,
    Nat.add_assoc, Nat.add_zero, Nat.reduceAdd]

/-! ## DECODE's verdict (R117) and a corrupted byte (R119) -/

/-- DECODE is Corrupt exactly by length or checksum (R117). -/
theorem decodeBytes_eq_corrupt_iff {c : Config} {b : Bytes} :
    decodeBytes c b = .corrupt ↔
      b.length < 10 ∨ c.maxFrame < b.length ∨ rdBE32 b (b.length - 4) ≠ crc32 (b.take (b.length - 4)) := by
  unfold decodeBytes
  dsimp only
  split
  case isTrue hlen => exact iff_of_true rfl (hlen.imp_right .inl)
  case isFalse hlen =>
    obtain ⟨hshort, hlong⟩ := not_or.1 hlen
    split
    case isTrue hsum => exact iff_of_true rfl (.inr (.inr hsum))
    case isFalse hsum => exact iff_of_false nofun (not_or.2 ⟨hshort, not_or.2 ⟨hlong, hsum⟩⟩)

/-- Where the trailer is the checksum, it is no longer once one byte changes: a byte of the trailer leaves the
computed checksum, a byte before it leaves the stored one. -/
theorem trailer_ne_crc32_set {b : Bytes} {n i : Nat} {x : Byte} (hn : b.length = n + 4) (hi : i < b.length)
    (hx : x ≠ byteAt b i) (hsum : rdBE32 b n = crc32 (b.take n)) :
    rdBE32 (b.set i x) n ≠ crc32 ((b.set i x).take n) := by
  rw [List.take_set]
  by_cases hbody : i < n
  · have hstored : rdBE32 (b.set i x) n = rdBE32 b n :=
      rdBE32_eq_iff.2 fun j _ => byteAt_set_of_ne b x (by omega)
    have hcomputed : crc32 ((b.take n).set i x) ≠ crc32 (b.take n) :=
      crc32_set_ne (by rw [List.length_take]; omega) (by rwa [byteAt_take b hbody])
    rw [hstored, hsum]
    exact hcomputed.symm
  · have hcomputed : (b.take n).set i x = b.take n := List.set_eq_of_length_le (by rw [List.length_take]; omega)
    rw [hcomputed, ← hsum]
    intro h
    have hbyte : byteAt (b.set i x) (n + (i - n)) = byteAt b (n + (i - n)) := rdBE32_eq_iff.1 h _ (by omega)
    rw [Nat.add_sub_cancel' (Nat.le_of_not_lt hbody), byteAt_set_self x hi] at hbyte
    exact hx hbyte

/-- A byte string that decodes is Corrupt once any one of its bytes changes. -/
theorem decodeBytes_set_corrupt {c : Config} {b : Bytes} {i : Nat} {x : Byte} (hok : decodeBytes c b ≠ .corrupt)
    (hi : i < b.length) (hx : x ≠ byteAt b i) : decodeBytes c (b.set i x) = .corrupt := by
  rw [Ne, decodeBytes_eq_corrupt_iff] at hok
  simp only [not_or, not_not] at hok
  obtain ⟨hshort, -, hsum⟩ := hok
  refine decodeBytes_eq_corrupt_iff.2 (.inr (.inr ?_))
  rw [List.length_set]
  exact trailer_ne_crc32_set (by omega) hi hx hsum

theorem xor_bit_ne (x : Byte) {j : Nat} (hj : j < 8) : x ^^^ (1#8 <<< j) ≠ x := by
  intro h
  have hbit : (x ^^^ (1#8 <<< j)).getLsbD j = x.getLsbD j := by rw [h]
  simp [hj] at hbit

/-- Settles O3: a flipped bit changes one byte, and the checksum finds any change of one byte. -/
theorem flippedBitIsCorrupt : Obligations.FlippedBitIsCorrupt :=
  fun _ b i _ hok hi hj => decodeBytes_set_corrupt hok hi (xor_bit_ne (byteAt b i) hj)

/-! ## Reserved kind codes (R118) -/

/-- The codes from 3 on are reserved (R83). -/
theorem kindOf_reserved {code : BitVec 3} (h : 3 ≤ code.toNat) : kindOf code = .other code := by
  have hne {k : BitVec 3} (hk : k.toNat < 3) : code ≠ k := fun e => by
    rw [e] at h
    omega
  rw [kindOf, if_neg (hne (by decide)), if_neg (hne (by decide)), if_neg (hne (by decide))]

end Sys2Proof

namespace Sys2Proof.Machine

/-! ## RX on a byte string that gives no instruction (R118, R223, R228) -/

/-- RX on a Corrupt byte string is case 1 of the dispatch (R223). -/
theorem rxFrame_corrupt {b : Bytes} {s : State} (h : decodeBytes s.cfg b = .corrupt) :
    rxFrame b s = .next (dropCorrupt s) := by
  simp only [rxFrame, decodeFrame, h, rxReject]

/-- RX dispatches a frame of a reserved kind as it is (R118, R222). -/
theorem rxFrame_reserved {b : Bytes} {s : State} {d : RxFrame} {code : BitVec 3}
    (h : decodeBytes s.cfg b = .ok d) (hk : d.kind = .other code) : rxFrame b s = .next (dispatch d s) := by
  simp only [rxFrame, decodeFrame, h, instrOfFrame, hk, rxReject]

/-- With room in IQ, no case of the dispatch applies to a reserved kind (R228). -/
theorem dispatch_reserved {d : RxFrame} {code : BitVec 3} {s : State} (hk : d.kind = .other code)
    (hroom : iqFull s = false) : dispatch d s = s := by
  rcases dispatch_cases d s with
    ⟨_, hbeacon, _⟩ | ⟨hfull, _⟩ | ⟨_, _, hdata, _⟩ | ⟨_, _, hack, _⟩ | ⟨_, _, hdata, _⟩ | ⟨_, e⟩
  · cases hk.symm.trans hbeacon
  · cases hroom.symm.trans hfull
  · cases hk.symm.trans hdata
  · cases hk.symm.trans hack
  · cases hk.symm.trans hdata
  · exact e

/-- Settles O5: the codec reads the reserved code back as OTHER, and no case of the dispatch is for it. -/
theorem reservedKindIsOtherAndIgnored : Obligations.ReservedKindIsOtherAndIgnored := by
  intro c code retry seq dest src p hcode hc hp
  have hdec : decodeBytes c (sealBody (frameBody (packCtl code retry seq) dest src p))
      = .ok ⟨.other code, retry, seq, dest, src, p⟩ := by
    rw [decodeBytes_sealBody _ _ _ hc hp, ctlKind_packCtl, ctlRetry_packCtl, ctlSeq_packCtl, kindOf_reserved hcode]
  refine ⟨hdec, fun s hs hiq => ?_⟩
  subst hs
  rw [rxFrame_reserved hdec rfl, dispatch_reserved rfl (beq_eq_false_iff_ne.2 hiq)]

/-- Settles O4: DECODE has two ways to Corrupt, and RX records each in LAST_EVENT as status 2. -/
theorem corruptVerdictExactly : Obligations.CorruptVerdictExactly := by
  refine fun c b => ⟨decodeBytes_eq_corrupt_iff, fun s hs h => ?_⟩
  subst hs
  rw [rxFrame_corrupt h]
  rfl

end Sys2Proof.Machine

namespace Sys2Proof.Machine

/-! # The clock & policy operations (41_clock_policy.md)

What a beacon's timestamp does to now(), and where the DIFS wait ends. -/

/-- A timestamp no greater than now() is not absorbed (R150). -/
theorem absorbBeacon_of_le {remote : Time} {s : State} (h : remote ≤ now s) : absorbBeacon remote s = s :=
  if_neg (BitVec.not_lt.2 h)

/-- A greater timestamp's lead over now() is added to OFFSET (R150). -/
theorem absorbBeacon_of_lt {remote : Time} {s : State} (h : now s < remote) :
    absorbBeacon remote s = { s with cp := { s.cp with offset := s.cp.offset + (remote - now s) } } :=
  if_pos h

/-- now() moves by what is added to OFFSET (R140). -/
theorem now_offset_add (d : Time) (s : State) :
    now { s with cp := { s.cp with offset := s.cp.offset + d } } = now s + d :=
  (BitVec.add_assoc ..).symm

/-- Settles O28: OFFSET grows by exactly the lead of the timestamp, which brings now() up to it. -/
theorem absorbSetsNow : Obligations.AbsorbSetsNow := by
  refine fun remote s => ⟨absorbBeacon_of_le, fun h => ?_⟩
  rw [absorbBeacon_of_lt h]
  exact ⟨by rw [now_offset_add, BitVec.add_comm, BitVec.sub_add_cancel], rfl⟩

/-- The gap from `t` to the next multiple of `b` ends on that multiple. -/
theorem dvd_add_gap {b : Nat} (t : Nat) (hb : 0 < b) : b ∣ t + (b - t % b) := by
  have hle : t % b ≤ t := Nat.mod_le t b
  have hlt : t % b < b := Nat.mod_lt t hb
  have hend : t + (b - t % b) = (t - t % b) + b := by omega
  rw [hend]
  exact (Nat.dvd_sub_mod t).add dvd_rfl

/-- The remainder the DIFS wait is rounded by, where now() + DIFS_TIME does not pass 2^64. -/
theorem boundaryRemainder_toNat {s : State} (h : (now s).toNat + s.cfg.difsTime.toNat < 2 ^ 64) :
    ((now s + s.cfg.difsTime) % s.cfg.slotBoundary).toNat
      = ((now s).toNat + s.cfg.difsTime.toNat) % s.cfg.slotBoundary.toNat := by
  rw [BitVec.toNat_umod, BitVec.toNat_add_of_lt h]

/-- The two outcomes of roundedBackoffBase(), where no sum passes 2^64: DIFS_TIME alone if it ends on a slot
boundary, else with the gap to the next one (R142). -/
theorem roundedBackoffBase_cases {s : State} {r : Nat} (hb : 0 < s.cfg.slotBoundary.toNat)
    (hsum : (now s).toNat + s.cfg.difsTime.toNat + s.cfg.slotBoundary.toNat < 2 ^ 64)
    (hr : ((now s).toNat + s.cfg.difsTime.toNat) % s.cfg.slotBoundary.toNat = r) :
    (r = 0 ∧ (roundedBackoffBase s).toNat = s.cfg.difsTime.toNat)
    ∨ (0 < r ∧ (roundedBackoffBase s).toNat = s.cfg.difsTime.toNat + (s.cfg.slotBoundary.toNat - r)) := by
  have hlt : r < s.cfg.slotBoundary.toNat := hr ▸ Nat.mod_lt _ hb
  rw [← boundaryRemainder_toNat (by omega)] at hr
  unfold roundedBackoffBase
  generalize (now s + s.cfg.difsTime) % s.cfg.slotBoundary = rem at hr
  by_cases hz : rem = 0#64
  · exact .inl ⟨by rw [← hr, hz, BitVec.toNat_zero], by rw [if_pos hz]⟩
  · have hpos : 0 < r := hr ▸ Nat.pos_of_ne_zero fun e => hz (BitVec.eq_of_toNat_eq e)
    refine .inr ⟨hpos, ?_⟩
    have hgap : (s.cfg.slotBoundary - rem).toNat = s.cfg.slotBoundary.toNat - r := by
      rw [BitVec.toNat_sub_of_le (BitVec.le_def.2 (by omega)), hr]
    rw [if_neg hz, BitVec.toNat_add_of_lt (by omega), hgap]

/-- Settles O29: DIFS_TIME ends on a boundary itself, or the gap to the next one is added, which is shorter than
the boundary. -/
theorem backoffBaseEndsOnBoundary : Obligations.BackoffBaseEndsOnBoundary := by
  intro s hb hsum
  rcases roundedBackoffBase_cases hb hsum rfl with ⟨hr, hwait⟩ | ⟨hpos, hwait⟩ <;> rw [hwait]
  · exact ⟨le_rfl, by omega, hr⟩
  · refine ⟨Nat.le_add_right .., by omega, ?_⟩
    rw [← Nat.add_assoc]
    exact Nat.mod_eq_zero_of_dvd (dvd_add_gap _ hb)

end Sys2Proof.Machine

/-! # The transmit unit, state by state (O30 to O40). -/

namespace Sys2Proof.Machine

/-! ## A TX step by its TX_STATE (R171) -/

theorem txStep_idle {s : State} (h : s.tx.state = .idle) : txStep s = .next (txIdle s) := by
  simp only [txStep, h]

theorem txStep_difsWait {s : State} (h : s.tx.state = .difsWait) : txStep s = .next (txDifsWait s) := by
  simp only [txStep, h]

theorem txStep_waitChannelIdle {s : State} (h : s.tx.state = .waitChannelIdle) :
    txStep s = .next (txWaitChannelIdle s) := by
  simp only [txStep, h]

theorem txStep_backoffSlot {s : State} (h : s.tx.state = .backoffSlot) : txStep s = .next (txBackoffSlot s) := by
  simp only [txStep, h]

theorem txStep_transmit {s : State} (h : s.tx.state = .transmit) : txStep s = .next (txTransmit s) := by
  simp only [txStep, h]

theorem txStep_awaitAck {s : State} (h : s.tx.state = .awaitAck) : txStep s = .next (txAwaitAck s) := by
  simp only [txStep, h]

theorem txStep_sendAckSifs {s : State} (h : s.tx.state = .sendAckSifs) : txStep s = .next (txSendAckSifs s) := by
  simp only [txStep, h]

/-! ## IDLE (R174 to R180, R200) -/

theorem serveQueue_of_nil {s : State} (h : s.oq = []) : serveQueue s = s := by
  simp only [serveQueue, h]

theorem serveQueue_of_ack {s : State} {e : OutEntry} {q : List OutEntry} (h : s.oq = e :: q)
    (hk : e.frame.kind = .ack) : serveQueue s = enterAckPath false e q s := by
  simp only [serveQueue, h, hk, if_true]

theorem serveQueue_of_busy {s : State} {e : OutEntry} {q : List OutEntry} (h : s.oq = e :: q)
    (hk : e.frame.kind ≠ .ack) (hb : s.chan.busy = true) : serveQueue s = waitForIdle (loadHead e q s) := by
  simp only [serveQueue, h, hk, if_false, initialCheck, loadHead_chan, hb, if_true]

theorem serveQueue_of_free {s : State} {e : OutEntry} {q : List OutEntry} (h : s.oq = e :: q)
    (hk : e.frame.kind ≠ .ack) (hb : s.chan.busy = false) : serveQueue s = enterDifsWait (loadHead e q s) := by
  simp only [serveQueue, h, hk, if_false, initialCheck, loadHead_chan, hb, Bool.false_eq_true]

theorem beaconCheck_of_not_due {s : State} (h : beaconDue s = false) : beaconCheck s = s := by
  rcases beaconCheck_cases s with ⟨_, e⟩ | ⟨hdue, _⟩
  · exact e
  · cases h.symm.trans hdue

/-- A beacon is due: LAST_BEACON is now() and the pending beacons leave OQ (R146, R175). -/
def coalesced (s : State) : State := removeBeacons { s with cp := { s.cp with lastBeacon := now s } }

theorem beaconCheck_of_due {s : State} (h : beaconDue s = true) :
    beaconCheck s = insertBeacon (be64 (now s)) (coalesced s) := by
  rcases beaconCheck_cases s with ⟨hdue, _⟩ | ⟨_, e⟩
  · cases h.symm.trans hdue
  · exact e

/-- With no frame in flight, OQ alone fills the queue (R38). -/
theorem occupancy_of_rest {s : State} (h : s.tx.txhValid = false) : occupancy s = s.oq.length := by
  rw [occupancy_eq, h]
  rfl

/-- Settles O30: with no beacon due the step is the service of OQ's front alone. -/
theorem idleServesFront : Obligations.IdleServesFront := by
  intro s hst hdue
  have hstep : txStep s = .next (serveQueue s) := by rw [txStep_idle hst, txIdle, beaconCheck_of_not_due hdue]
  rw [hstep]
  refine ⟨fun hq => ?_, fun e q hq hk => ?_, fun e q hq hk hb => ?_, fun e q hq hk hb => ?_⟩
  · rw [serveQueue_of_nil hq]
  · rw [serveQueue_of_ack hq hk]
    rfl
  · rw [serveQueue_of_busy hq hk hb]
    rfl
  · rw [serveQueue_of_free hq hk hb]
    rfl

/-- The load and the initial channel check in one: the head waits as carrier sense says (R179, R180). -/
theorem initialCheck_loadHead (e : OutEntry) (q : List OutEntry) (s : State) :
    initialCheck (loadHead e q s) = { s with
      oq := q
      tx := { s.tx with
              txh := { e with acked := false }, txhValid := true
              needBackoff := s.chan.busy
              state := if s.chan.busy = true then .waitChannelIdle else .difsWait
              deadline := if s.chan.busy = true then s.tx.deadline else now s + roundedBackoffBase s } } := by
  cases hb : s.chan.busy <;> simp only [initialCheck, loadHead_chan, hb] <;> rfl

/-- IDLE with a beacon due and room for it: the beacon inserted is at once the front that is served (R176, R179). -/
theorem txIdle_of_beacon {s : State} (hdue : beaconDue s = true)
    (room : occupancy (coalesced s) < s.cfg.oqCap + s.cfg.oqHeadroom) :
    txIdle s = initialCheck (loadHead (freshEntry (beaconFrame s (be64 (now s)))) (coalesced s).oq
      (setOutSeq bcast (outSeqAt s bcast + 1) (coalesced s))) := by
  rcases insertBeacon_cases (be64 (now s)) (coalesced s) with ⟨_, e⟩ | ⟨hfull, _⟩
  · rw [txIdle, beaconCheck_of_due hdue, e]
    rfl
  · exact absurd room hfull

/-- IDLE with a beacon due and no room: the beacon is lost, and what is left of OQ is served (R176). -/
theorem txIdle_of_lost_beacon {s : State} (hdue : beaconDue s = true)
    (full : s.cfg.oqCap + s.cfg.oqHeadroom ≤ occupancy (coalesced s)) : txIdle s = serveQueue (coalesced s) := by
  rcases insertBeacon_cases (be64 (now s)) (coalesced s) with ⟨room, _⟩ | ⟨_, e⟩
  · exact absurd full (Nat.not_le.2 room)
  · rw [txIdle, beaconCheck_of_due hdue, e]

/-- Settles O31: with room the beacon passes through OQ into flight; without, the rest of OQ is served. -/
theorem idleSendsDueBeacon : Obligations.IdleSendsDueBeacon := by
  intro s hst hv hdue q cp
  have hocc : occupancy (coalesced s) = q.length := occupancy_of_rest hv
  rw [txStep_idle hst]
  refine ⟨fun room => ⟨_, rfl, ?_⟩, fun full => ?_⟩
  · rw [txIdle_of_beacon hdue (by rwa [hocc]), initialCheck_loadHead]
    exact ⟨rfl, outSeqAt_setOutSeq_same _ bcast _, fun a ha => outSeqAt_setOutSeq_of_ne (coalesced s) _ ha⟩
  · rw [txIdle_of_lost_beacon hdue (by rwa [hocc])]
    refine ⟨fun hq => ?_, fun e r hq hk => ?_, fun e r hq hk hb => ?_, fun e r hq hk hb => ?_⟩
    · rw [serveQueue_of_nil (s := coalesced s) hq, ← hq]
      rfl
    · rw [serveQueue_of_ack (s := coalesced s) hq hk]
      rfl
    · rw [serveQueue_of_busy (s := coalesced s) hq hk hb]
      rfl
    · rw [serveQueue_of_free (s := coalesced s) hq hk hb]
      rfl

/-! ## DIFS_WAIT, WAIT_CHANNEL_IDLE and BACKOFF_SLOT (R181 to R186) -/

theorem enterBackoff_of_zero {s : State} (h : s.cp.backoff = 0#16) : enterBackoff s = toTransmit s := if_pos h

theorem enterBackoff_of_ne {s : State} (h : s.cp.backoff ≠ 0#16) : enterBackoff s = startSlot s := if_neg h

/-- DIFS_WAIT at the deadline of an idle channel (R182). -/
theorem txDifsWait_at_deadline {s : State} (hb : s.chan.busy = false) (hd : s.tx.deadline ≤ now s) :
    txDifsWait s = if s.tx.needBackoff then enterBackoff s else toTransmit s := by
  rw [txDifsWait, if_neg (by simp [hb]), if_pos hd]

/-- BACKOFF_SLOT at the deadline of an idle channel (R186). -/
theorem txBackoffSlot_at_deadline {s : State} (hb : s.chan.busy = false) (hd : s.tx.deadline ≤ now s) :
    txBackoffSlot s = enterBackoff (countSlot s) := by
  rw [txBackoffSlot, if_neg (by simp [hb]), if_pos hd]

/-- One slot less, as a number (R186). -/
theorem countSlot_backoff_toNat {s : State} (h : 1 ≤ s.cp.backoff.toNat) :
    (countSlot s).cp.backoff.toNat = s.cp.backoff.toNat - 1 :=
  BitVec.toNat_sub_of_le (BitVec.le_def.2 h)

/-- Settles O32: a busy channel comes first, then the deadline, then the backoff the frame needs. -/
theorem difsWaitBusyFirstThenDeadline : Obligations.DifsWaitBusyFirstThenDeadline := by
  intro s hst
  rw [txStep_difsWait hst]
  refine ⟨fun hb => ?_, fun hb hd => ?_, fun hb hd hn => ?_, fun hb hd hn hz => ?_⟩
  · rw [txDifsWait, if_pos hb]
    rfl
  · rw [txDifsWait, if_neg (by simp [hb]), if_neg (BitVec.not_le.2 hd)]
  · rw [txDifsWait_at_deadline hb hd]
    rcases hn with hn | hz
    · rw [hn]
      rfl
    · rw [enterBackoff_of_zero hz, ite_self]
      rfl
  · rw [txDifsWait_at_deadline hb hd, if_pos hn, enterBackoff_of_ne hz]
    rfl

/-- Settles O33: WAIT_CHANNEL_IDLE reads carrier sense and nothing else. -/
theorem waitChannelIdleReRunsDifs : Obligations.WaitChannelIdleReRunsDifs := by
  intro s hst
  rw [txStep_waitChannelIdle hst]
  refine ⟨fun hb => ?_, fun hb => ?_⟩
  · rw [txWaitChannelIdle, if_pos hb]
  · rw [txWaitChannelIdle, if_neg (by simp [hb])]
    rfl

/-- Settles O34: at the deadline one slot is counted, and the backoff entry goes on by what is left. -/
theorem backoffSlotCountsIdleSlots : Obligations.BackoffSlotCountsIdleSlots := by
  intro s hst hpos
  have hcount := countSlot_backoff_toNat hpos
  rw [txStep_backoffSlot hst]
  refine ⟨fun hb => ?_, fun hb hd => ?_, fun hb hd hone => ?_, fun hb hd htwo => ?_⟩
  · rw [txBackoffSlot, if_pos hb]
  · rw [txBackoffSlot, if_neg (by simp [hb]), if_neg (BitVec.not_le.2 hd)]
  · have hz : (countSlot s).cp.backoff = 0#16 := BitVec.eq_of_toNat_eq (by rw [hcount, hone]; rfl)
    rw [txBackoffSlot_at_deadline hb hd, enterBackoff_of_zero hz, ← hz]
    rfl
  · have hnz : (countSlot s).cp.backoff ≠ 0#16 := fun hz => by
      rw [hz, BitVec.toNat_zero] at hcount
      omega
    rw [txBackoffSlot_at_deadline hb hd, enterBackoff_of_ne hnz, ← hcount, BitVec.ofNat_toNat, BitVec.setWidth_eq,
      startSlot, ← hst]
    rfl

/-! ## TRANSMIT (R188 to R190) -/

/-- BackoffDraw writes BACKOFF and the index of the free draws; what it writes is drawn from CW (R197). -/
theorem reloadBackoff_draws (s : State) :
    ∃ b n, reloadBackoff s = { s with cp := { s.cp with backoff := b }, drawCount := n }
      ∧ DrawnFrom s.cp.fixedSlot s.cp.cw b := by
  obtain ⟨b, n, e, hle, hfixed⟩ := reloadBackoff_cases s
  exact ⟨b, n, e, hle, fun hf => (hfixed hf).1⟩

theorem isUnicastData_iff {f : Frame} : isUnicastData f = true ↔ f.kind = .data ∧ f.dest ≠ bcast := by
  simp [isUnicastData, isBroadcast]

/-- A fire-and-forget frame is resolved, with a status for DATA alone, and BACKOFF is drawn anew (R190). -/
theorem fireAndForget_resolves (s : State) :
    ∃ b n, fireAndForget s = { s with
        cp := { s.cp with
                backoff := b
                lastEvent := if s.tx.txh.frame.kind = .data then 4#8 else s.cp.lastEvent }
        tx := { s.tx with txhValid := false, state := .idle }
        drawCount := n }
      ∧ DrawnFrom s.cp.fixedSlot s.cp.cw b := by
  by_cases hk : s.tx.txh.frame.kind = .data
  · rw [fireAndForget, if_pos hk, if_pos hk]
    exact reloadBackoff_draws (resolveHead (record .txDelivered s))
  · rw [fireAndForget, if_neg hk, if_neg hk]
    exact reloadBackoff_draws (resolveHead s)

/-- Settles O35: the kind and the destination of the head choose between the ACK wait and the resolution. -/
theorem transmitHandsFrameToChannel : Obligations.TransmitHandsFrameToChannel := by
  intro s hst
  rw [txStep_transmit hst]
  refine ⟨_, rfl, txTransmit_chan s, fun hu => ?_, fun hu => ?_⟩
  · rw [txTransmit, if_pos (isUnicastData_iff.2 hu)]
    rfl
  · have hne : ¬ isUnicastData s.tx.txh.frame = true := by
      rw [isUnicastData_iff]
      tauto
    obtain ⟨b, n, e, hdraw⟩ := fireAndForget_resolves (chanTransmit (encodeFrame s.tx.txh.frame) s)
    rw [txTransmit, if_neg hne, e]
    exact ⟨rfl, hdraw⟩

/-! ## AWAIT_ACK (R191 to R200) -/

theorem ackTimedOut_iff {s : State} : ackTimedOut s = true ↔ s.cfg.ackTimeout ≤ now s - s.cp.ackWaitStart :=
  decide_eq_true_iff

/-- The doubled window is the exact minimum where CW_MAX fits CW (R8, R196). -/
theorem doubledWindow_toNat {c : Config} {cw : BitVec 16} (h : c.cwMax ≤ 0xFFFF) :
    (doubledWindow c cw).toNat = min (2 * cw.toNat) c.cwMax := by
  rw [doubledWindow, BitVec.toNat_ofNat, Nat.mod_eq_of_lt (by omega)]

/-- Settles O36: the acked flag is read before the retries and the timer. -/
theorem ackedHeadIsDelivered : Obligations.AckedHeadIsDelivered := by
  intro s hst hacked
  obtain ⟨b, n, e, hdraw⟩ := reloadBackoff_draws (resetWindow (resolveHead (record .txDelivered s)))
  rw [txStep_awaitAck hst, txAwaitAck, if_pos hacked, headDelivered, e]
  exact ⟨_, rfl, rfl, hdraw⟩

/-- Settles O37: of the resolved head only its peer is read, to reset OUT_SEQ and to purge OQ. -/
theorem retryLimitFailsHead : Obligations.RetryLimitFailsHead := by
  intro s hst hacked hlimit
  obtain ⟨b, n, e, hdraw⟩ := reloadBackoff_draws (purgePeer s.tx.txh.frame.dest
    (setOutSeq s.tx.txh.frame.dest 0#12 (resetWindow (resolveHead (record .txFailed s)))))
  rw [txStep_awaitAck hst, txAwaitAck, if_neg (by simp [hacked]), if_pos hlimit, headFailed, e]
  exact ⟨_, rfl, rfl, outSeqAt_setOutSeq_same s _ _, fun a ha => outSeqAt_setOutSeq_of_ne s _ ha, hdraw⟩

/-- Settles O38. -/
theorem ackTimeoutRetransmits : Obligations.AckTimeoutRetransmits := by
  intro s hst hacked hlimit hmax htime
  obtain ⟨b, n, e, hdraw⟩ := reloadBackoff_draws (doubleWindow s)
  rw [txStep_awaitAck hst, txAwaitAck, if_neg (by simp [hacked]), if_neg (by omega), if_pos (ackTimedOut_iff.2 htime),
    headTimedOut, e]
  exact ⟨_, rfl, rfl, doubledWindow_toNat hmax, hdraw⟩

/-- Settles O39: with none of the three outcomes only the front of OQ is looked at. -/
theorem awaitAckServesAckOrPolls : Obligations.AwaitAckServesAckOrPolls := by
  intro s hst hacked hlimit htime
  have hpoll : txStep s = .next (serveAckWhileWaiting s) := by
    rw [txStep_awaitAck hst, txAwaitAck, if_neg (by simp [hacked]), if_neg (by omega),
      if_neg (mt ackTimedOut_iff.1 (BitVec.not_le.2 htime))]
  rw [hpoll]
  refine ⟨fun e q hq hk => ?_, fun hq => ?_, fun e q hq hk => ?_⟩
  · simp only [serveAckWhileWaiting, hq, hk, if_true]
    rfl
  · simp only [serveAckWhileWaiting, hq]
  · simp only [serveAckWhileWaiting, hq, hk, if_false]

/-! ## SEND_ACK_SIFS (R201 to R203) -/

/-- Settles O40: phase 0 reads carrier sense alone and phase 1 the deadline alone. -/
theorem ackGoesAfterSifs : Obligations.AckGoesAfterSifs := by
  intro s hst
  rw [txStep_sendAckSifs hst]
  refine ⟨fun hp hb => ?_, fun hp hb => ?_, fun hp hd => ?_, fun hp hd => ?_⟩
  · rw [txSendAckSifs, if_neg (by simp [hp]), if_pos hb]
  · rw [txSendAckSifs, if_neg (by simp [hp]), if_neg (by simp [hb])]
    rfl
  · rw [txSendAckSifs, if_pos hp, if_neg (BitVec.not_le.2 hd)]
  · rw [txSendAckSifs, if_pos hp, if_pos hd]
    rfl

end Sys2Proof.Machine

/-! # What a head in AWAIT_ACK can come to, and the writers of CW and BACKOFF (O54). -/

namespace Sys2Proof.Machine

/-! ## AWAIT_ACK by its outcomes (R191 to R199) -/

/-- The head is resolved with the window at rest: IDLE, CW 1, a draw from it, and of OQ what is not purged. -/
structure HeadResolved (s t : State) : Prop where
  cfg     : t.cfg = s.cfg
  tx      : t.tx = { s.tx with txhValid := false, state := .idle }
  cw      : t.cp.cw = cwReset
  backoff : t.cp.backoff.toNat ≤ 1
  oq      : ∀ e ∈ t.oq, e ∈ s.oq

/-- The head is retried below the limit: the window doubled, a draw from it, and the frame marked (R195). -/
structure HeadRetried (s t : State) : Prop where
  cfg     : t.cfg = s.cfg
  below   : s.tx.txh.retries.toNat < s.cfg.retryLimit
  tx      : t.tx = { s.tx with
              state := .waitChannelIdle, needBackoff := true
              txh := { s.tx.txh with
                       retries := s.tx.txh.retries + 1, frame := { s.tx.txh.frame with retry := true } } }
  cw      : t.cp.cw.toNat = min (2 * s.cp.cw.toNat) s.cfg.cwMax
  backoff : t.cp.backoff.toNat ≤ t.cp.cw.toNat
  oq      : t.oq = s.oq

/-- What a TX step in AWAIT_ACK can do, one constructor per outcome (R191). -/
inductive AwaitAckMoves (s : State) : State → Prop where
  /-- Delivered or failed (R192, R193). -/
  | resolve {t : State} (h : HeadResolved s t) : AwaitAckMoves s t
  /-- The ACK timed out (R195). -/
  | retry {t : State} (h : HeadRetried s t) : AwaitAckMoves s t
  /-- The ACK at the front of OQ is served (R198). -/
  | serveAck (e : OutEntry) (q : List OutEntry) (front : s.oq = e :: q) (kind : e.frame.kind = .ack) :
      AwaitAckMoves s (enterAckPath true e q s)
  /-- Nothing to do (R199). -/
  | poll : AwaitAckMoves s s

theorem txStep_awaitAck_moves {s t : State} (hmax : s.cfg.cwMax ≤ 0xFFFF) (hst : s.tx.state = .awaitAck)
    (h : txStep s = .next t) : AwaitAckMoves s t := by
  have hcfg := (txStep_writes h).cfg
  by_cases hacked : s.tx.txh.acked = true
  · obtain ⟨u, hu, e, hdraw, _⟩ := ackedHeadIsDelivered s hst hacked
    cases hu.symm.trans h
    refine .resolve ⟨hcfg, congrArg State.tx e, congrArg (·.cp.cw) e, hdraw, ?_⟩
    rw [e]
    exact fun _ => id
  have hacked : s.tx.txh.acked = false := by simpa using hacked
  by_cases hlimit : s.cfg.retryLimit ≤ s.tx.txh.retries.toNat
  · obtain ⟨u, hu, e, _, _, hdraw, _⟩ := retryLimitFailsHead s hst hacked hlimit
    cases hu.symm.trans h
    refine .resolve ⟨hcfg, congrArg State.tx e, congrArg (·.cp.cw) e, hdraw, ?_⟩
    rw [e]
    exact fun x hx => (List.mem_filter.1 hx).1
  have hlimit := Nat.lt_of_not_le hlimit
  by_cases htime : s.cfg.ackTimeout ≤ now s - s.cp.ackWaitStart
  · obtain ⟨u, hu, e, hcw, hdraw, _⟩ := ackTimeoutRetransmits s hst hacked hlimit hmax htime
    cases hu.symm.trans h
    exact .retry ⟨hcfg, hlimit, congrArg State.tx e, hcw, hdraw, by rw [e]⟩
  obtain ⟨hack, hnil, hother⟩ := awaitAckServesAckOrPolls s hst hacked hlimit (BitVec.not_le.1 htime)
  cases hq : s.oq with
  | nil =>
    cases (hnil hq).symm.trans h
    exact .poll
  | cons e q =>
    by_cases hk : e.frame.kind = .ack
    · cases (hack e q hq hk).symm.trans h
      exact .serveAck e q hq hk
    · cases (hother e q hq hk).symm.trans h
      exact .poll

/-! ## CW and BACKOFF (R187, R196) -/

/-- CW and BACKOFF are TX's alone. -/
theorem runAgent_window_of_ne {a : AgentStep} {s t : State} (h : runAgent a s = .next t) (ha : a ≠ .tx) :
    t.cp.cw = s.cp.cw ∧ t.cp.backoff = s.cp.backoff := by
  cases a with
  | tx => exact absurd rfl ha
  | rx =>
    rw [(rxStep_writes h).cp]
    exact ⟨rfl, rfl⟩
  | host g k => exact ⟨(hostStep_writes h).cw, (hostStep_writes h).backoff⟩
  | complete g => exact ⟨(completeStep_writes h).cw, (completeStep_writes h).backoff⟩
  | tick | busy | arrive | idleTime =>
    cases h
    exact ⟨rfl, rfl⟩

theorem beaconCheck_cp (s : State) :
    (beaconCheck s).cp = { s.cp with lastBeacon := (beaconCheck s).cp.lastBeacon } := by
  rcases beaconCheck_cases s with ⟨_, e⟩ | ⟨_, e⟩ <;> rw [e]
  rw [insertBeacon_cp]
  rfl

theorem serveQueue_cp (s : State) : (serveQueue s).cp = s.cp := by
  rcases serveQueue_cases s with ⟨_, e⟩ | ⟨x, q, _, _, e⟩ | ⟨x, q, _, _, _, e⟩ | ⟨x, q, _, _, _, e⟩ <;> simp [e]

theorem enterBackoff_cp (s : State) : (enterBackoff s).cp = s.cp := by
  rcases enterBackoff_cases s with ⟨_, e⟩ | ⟨_, e⟩ <;> simp [e]

theorem txDifsWait_cp (s : State) : (txDifsWait s).cp = s.cp := by
  unfold txDifsWait
  split_ifs
  · rfl
  · exact enterBackoff_cp s
  · rfl
  · rfl

theorem txBackoffSlot_cp (s : State) : (txBackoffSlot s).cp = s.cp ∨ (txBackoffSlot s).cp = (countSlot s).cp := by
  unfold txBackoffSlot
  split_ifs
  · exact .inl rfl
  · exact .inr (enterBackoff_cp _)
  · exact .inl rfl

theorem txWaitChannelIdle_cp (s : State) : (txWaitChannelIdle s).cp = s.cp := by
  unfold txWaitChannelIdle
  split_ifs <;> rfl

theorem txSendAckSifs_cp (s : State) : (txSendAckSifs s).cp = s.cp := by
  unfold txSendAckSifs
  split_ifs <;> rfl

/-- TRANSMIT keeps CW, and keeps BACKOFF or draws it from CW (R189, R190). -/
theorem txTransmit_window {s t : State} (hst : s.tx.state = .transmit) (h : txStep s = .next t) :
    t.cp.cw = s.cp.cw ∧ (t.cp.backoff = s.cp.backoff ∨ t.cp.backoff.toNat ≤ s.cp.cw.toNat) := by
  obtain ⟨u, hu, _, hunicast, hother⟩ := transmitHandsFrameToChannel s hst
  cases hu.symm.trans h
  by_cases hd : s.tx.txh.frame.kind = .data ∧ s.tx.txh.frame.dest ≠ bcast
  · rw [hunicast hd]
    exact ⟨rfl, .inl rfl⟩
  · obtain ⟨e, hdraw, _⟩ := hother (by tauto)
    exact ⟨congrArg (·.cp.cw) e, .inr hdraw⟩

/-- CW in a TX step: kept, or in AWAIT_ACK reset or doubled (R196). -/
theorem txStep_cw {s t : State} (hmax : s.cfg.cwMax ≤ 0xFFFF) (h : txStep s = .next t) :
    t.cp.cw = s.cp.cw
    ∨ s.tx.state = .awaitAck ∧ (t.cp.cw = 1#16 ∨ t.cp.cw.toNat = min (2 * s.cp.cw.toNat) s.cfg.cwMax) := by
  rcases txStep_next h with
    ⟨_, rfl⟩ | ⟨_, rfl⟩ | ⟨_, rfl⟩ | ⟨hst, _⟩ | ⟨hst, _⟩ | ⟨_, rfl⟩ | ⟨_, rfl⟩
  · left
    rw [txIdle, serveQueue_cp, beaconCheck_cp]
  · exact .inl (congrArg ClockPolicy.cw (txDifsWait_cp s))
  · left
    rcases txBackoffSlot_cp s with e | e <;> rw [e]
    rfl
  · exact .inl (txTransmit_window hst h).1
  · cases txStep_awaitAck_moves hmax hst h with
    | resolve hr => exact .inr ⟨hst, .inl hr.cw⟩
    | retry hr => exact .inr ⟨hst, .inr hr.cw⟩
    | serveAck | poll => exact .inl rfl
  · exact .inl (congrArg ClockPolicy.cw (txWaitChannelIdle_cp s))
  · exact .inl (congrArg ClockPolicy.cw (txSendAckSifs_cp s))

/-- BACKOFF in a TX step: kept, counted down in BACKOFF_SLOT, or drawn in TRANSMIT or AWAIT_ACK (R187). -/
theorem txStep_backoff {s t : State} (hmax : s.cfg.cwMax ≤ 0xFFFF) (h : txStep s = .next t) :
    t.cp.backoff = s.cp.backoff
    ∨ s.tx.state = .backoffSlot ∧ t.cp.backoff = s.cp.backoff - 1
    ∨ (s.tx.state = .transmit ∨ s.tx.state = .awaitAck) ∧ t.cp.backoff.toNat ≤ t.cp.cw.toNat := by
  rcases txStep_next h with
    ⟨_, rfl⟩ | ⟨_, rfl⟩ | ⟨hst, rfl⟩ | ⟨hst, _⟩ | ⟨hst, _⟩ | ⟨_, rfl⟩ | ⟨_, rfl⟩
  · left
    rw [txIdle, serveQueue_cp, beaconCheck_cp]
  · exact .inl (congrArg ClockPolicy.backoff (txDifsWait_cp s))
  · rcases txBackoffSlot_cp s with e | e <;> rw [e]
    · exact .inl rfl
    · exact .inr (.inl ⟨hst, rfl⟩)
  · obtain ⟨hcw, hb | hb⟩ := txTransmit_window hst h
    · exact .inl hb
    · exact .inr (.inr ⟨.inl hst, by rwa [hcw]⟩)
  · cases txStep_awaitAck_moves hmax hst h with
    | resolve hr => exact .inr (.inr ⟨.inr hst, by rw [hr.cw]; exact hr.backoff⟩)
    | retry hr => exact .inr (.inr ⟨.inr hst, hr.backoff⟩)
    | serveAck | poll => exact .inl rfl
  · exact .inl (congrArg ClockPolicy.backoff (txWaitChannelIdle_cp s))
  · exact .inl (congrArg ClockPolicy.backoff (txSendAckSifs_cp s))

/-- Settles O54: no agent but TX writes either register, and a TX step writes them as its state allows. -/
theorem backoffAndWindowWriters : Obligations.BackoffAndWindowWriters := by
  intro s t hmax he
  obtain ⟨_, hr⟩ := step_next he
  rw [← consumePick_cp s, ← consumePick_tx s, ← consumePick_cfg s]
  by_cases hp : nextStep s = .tx
  · rw [hp] at hr
    rw [← consumePick_cfg s] at hmax
    exact ⟨(txStep_cw hmax hr).imp_right (And.intro hp), (txStep_backoff hmax hr).imp_right (And.intro hp)⟩
  · obtain ⟨hcw, hbackoff⟩ := runAgent_window_of_ne hr hp
    exact ⟨.inl hcw, .inl hbackoff⟩

end Sys2Proof.Machine

/-! # The invariants of the transmit unit (O43). -/

namespace Sys2Proof.Machine

/-- What R8 says of CW_MAX and RETRY_LIMIT. -/
theorem windowBounds {c : Config} (h : c.ok = true) : 1 ≤ c.cwMax ∧ c.cwMax ≤ 0xFFFF ∧ c.retryLimit ≤ 255 := by
  unfold Config.ok at h
  obtain ⟨_, _, _, _, hmin, hmax, hlimit, _⟩ := of_decide_eq_true h
  exact ⟨hmin, hmax, hlimit⟩

/-! ## The parts of R173

`TransmitInvariant` says where TX stands, what is claimed of the frame in flight, and what of the window, the
counter and the queue. The first two read little of the state and are named here. -/

/-- Where TX stands: its state with the valid bits, NEED_BACKOFF and BACKOFF (R173 (a), (c), R183 to R190). -/
structure ControlSound (t : TxUnit) (backoff : BitVec 16) : Prop where
  headValid    : t.txhValid = headInFlight t
  ackrValid    : t.ackrValid = decide (t.state = .sendAckSifs)
  waitsUnicast : awaitingAck t = true → isUnicastData t.txh.frame = true
  slotCounts   : t.state = .backoffSlot → backoff ≠ 0#16
  pausedNeeds  : t.state = .waitChannelIdle ∨ t.state = .backoffSlot → t.needBackoff = true
  stateUsed    : t.state ≠ .unused

/-- What is claimed of a frame in flight, sent `retries` times again, under window `cw` (R86, R173(b), R193, R195,
R204). -/
structure HeadSound (c : Config) (cw : BitVec 16) (f : Frame) (retries : BitVec 8) : Prop where
  kind     : f.kind ≠ .ack
  growth   : cw.toNat = min (2 ^ retries.toNat) c.cwMax
  limit    : retries.toNat ≤ c.retryLimit
  retryBit : f.retry = true ↔ retries ≠ 0#8
  unicast  : retries ≠ 0#8 → isUnicastData f = true

namespace TransmitInvariant

theorem control {s : State} (h : TransmitInvariant s) : ControlSound s.tx s.cp.backoff :=
  ⟨h.headValid, h.ackrValid, h.waitsUnicast, h.slotCounts, h.pausedNeeds, h.stateUsed⟩

theorem head {s : State} (h : TransmitInvariant s) (hv : s.tx.txhValid = true) :
    HeadSound s.cfg s.cp.cw s.tx.txh.frame s.tx.txh.retries :=
  ⟨h.headKind hv, h.windowGrowth hv, h.retryRange hv, h.retryBit hv, h.retriedUnicast hv⟩

theorem of_parts {s : State} (control : ControlSound s.tx s.cp.backoff)
    (head : s.tx.txhValid = true → HeadSound s.cfg s.cp.cw s.tx.txh.frame s.tx.txh.retries)
    (rest : s.tx.txhValid = false → s.cp.cw = cwReset)
    (window : 1 ≤ s.cp.cw.toNat ∧ s.cp.cw.toNat ≤ max 1 s.cfg.cwMax)
    (backoff : s.cp.backoff.toNat ≤ s.cfg.cwMax)
    (queued : ∀ e ∈ s.oq, e = freshEntry e.frame ∧ e.frame.retry = false) : TransmitInvariant s where
  headValid      := control.headValid
  headKind       := fun hv => (head hv).kind
  ackrValid      := control.ackrValid
  windowAtRest   := rest
  windowRange    := window
  backoffRange   := backoff
  windowGrowth   := fun hv => (head hv).growth
  retryRange     := fun hv => (head hv).limit
  retryBit       := fun hv => (head hv).retryBit
  waitsUnicast   := control.waitsUnicast
  retriedUnicast := fun hv => (head hv).unicast
  queuedFresh    := queued
  slotCounts     := control.slotCounts
  pausedNeeds    := control.pausedNeeds
  stateUsed      := control.stateUsed

/-- Where the parameters, CW and the head's frame, retries and valid bit stay, the invariant is where TX stands,
the counter's bound, and that what joined OQ is fresh. -/
theorem of_control {s t : State} (hs : TransmitInvariant s) (cfg : t.cfg = s.cfg) (cw : t.cp.cw = s.cp.cw)
    (valid : t.tx.txhValid = s.tx.txhValid) (frame : t.tx.txh.frame = s.tx.txh.frame)
    (retries : t.tx.txh.retries = s.tx.txh.retries) (backoff : t.cp.backoff.toNat ≤ s.cp.backoff.toNat)
    (oq : ∀ e ∈ t.oq, e ∈ s.oq ∨ e = freshEntry e.frame ∧ e.frame.retry = false)
    (control : ControlSound t.tx t.cp.backoff) : TransmitInvariant t := by
  refine of_parts control (fun hv => ?_) ?_ ?_ ?_ fun e he => (oq e he).elim (hs.queuedFresh e) id
  · rw [cfg, cw, frame, retries]
    exact hs.head (valid ▸ hv)
  · rw [valid, cw]
    exact hs.windowAtRest
  · rw [cfg, cw]
    exact hs.windowRange
  · rw [cfg]
    exact backoff.trans hs.backoffRange

/-- TX's own registers, CW and BACKOFF left alone, only what joins OQ matters. -/
theorem of_tx {s t : State} (hs : TransmitInvariant s) (cfg : t.cfg = s.cfg) (tx : t.tx = s.tx)
    (cw : t.cp.cw = s.cp.cw) (backoff : t.cp.backoff = s.cp.backoff)
    (oq : ∀ e ∈ t.oq, e ∈ s.oq ∨ e = freshEntry e.frame ∧ e.frame.retry = false) : TransmitInvariant t :=
  hs.of_control cfg cw (by rw [tx]) (by rw [tx]) (by rw [tx]) (by rw [backoff]) oq
    (by rw [tx, backoff]; exact hs.control)

end TransmitInvariant

/-! ## Contending for the channel (R180 to R187) -/

/-- The states in which the head waits for its transmission. -/
def contending : TxState → Bool
  | .difsWait | .waitChannelIdle | .backoffSlot | .transmit => true
  | .idle | .awaitAck | .sendAckSifs | .unused              => false

/-- In these states the head is in flight, not yet awaiting its ACK, and no ACK is being sent. -/
theorem contending_flags {t : TxUnit} (hc : contending t.state = true) :
    headInFlight t = true ∧ awaitingAck t = false ∧ t.state ≠ .sendAckSifs ∧ t.state ≠ .unused := by
  cases hst : t.state <;> simp_all [contending, headInFlight, awaitingAck]

theorem controlSound_of_contending {t : TxUnit} {b : BitVec 16} (hc : contending t.state = true)
    (valid : t.txhValid = true) (ackr : t.ackrValid = false) (slot : t.state = .backoffSlot → b ≠ 0#16)
    (paused : t.state = .waitChannelIdle ∨ t.state = .backoffSlot → t.needBackoff = true) : ControlSound t b := by
  obtain ⟨hflight, hwait, hsifs, hused⟩ := contending_flags hc
  refine ⟨valid.trans hflight.symm, ackr.trans (decide_eq_false hsifs).symm, fun h => ?_, slot, paused, hused⟩
  cases hwait.symm.trans h

namespace TransmitInvariant

theorem contending_valid {s : State} (hs : TransmitInvariant s) (hc : contending s.tx.state = true) :
    s.tx.txhValid = true ∧ s.tx.ackrValid = false := by
  obtain ⟨hflight, _, hsifs, _⟩ := contending_flags hc
  exact ⟨hs.headValid.trans hflight, hs.ackrValid.trans (decide_eq_false hsifs)⟩

/-- A step from one contending state to another keeps the head and the window. -/
theorem after_contending {s t : State} (hs : TransmitInvariant s) (hc : contending s.tx.state = true)
    (cfg : t.cfg = s.cfg) (oq : t.oq = s.oq) (cw : t.cp.cw = s.cp.cw)
    (tx : t.tx = { s.tx with
            deadline := t.tx.deadline, needBackoff := t.tx.needBackoff, state := t.tx.state })
    (backoff : t.cp.backoff.toNat ≤ s.cp.backoff.toNat) (target : contending t.tx.state = true)
    (slot : t.tx.state = .backoffSlot → t.cp.backoff ≠ 0#16)
    (paused : t.tx.state = .waitChannelIdle ∨ t.tx.state = .backoffSlot → t.tx.needBackoff = true) :
    TransmitInvariant t := by
  obtain ⟨hvalid, hackr⟩ := hs.contending_valid hc
  refine hs.of_control cfg cw (by rw [tx]) (by rw [tx]) (by rw [tx]) backoff (by rw [oq]; exact fun _ => .inl) ?_
  exact controlSound_of_contending target (by rw [tx]; exact hvalid) (by rw [tx]; exact hackr) slot paused

theorem after_waitForIdle {s : State} (hs : TransmitInvariant s) (hc : contending s.tx.state = true) :
    TransmitInvariant (waitForIdle s) :=
  hs.after_contending hc rfl rfl rfl rfl le_rfl rfl nofun fun _ => rfl

theorem after_enterDifsWait {s : State} (hs : TransmitInvariant s) (hc : contending s.tx.state = true) :
    TransmitInvariant (enterDifsWait s) :=
  hs.after_contending hc rfl rfl rfl rfl le_rfl rfl nofun nofun

theorem after_toTransmit {s : State} (hs : TransmitInvariant s) (hc : contending s.tx.state = true) :
    TransmitInvariant (toTransmit s) :=
  hs.after_contending hc rfl rfl rfl rfl le_rfl rfl nofun nofun

theorem after_txDifsWait {s : State} (hs : TransmitInvariant s) (hst : s.tx.state = .difsWait) :
    TransmitInvariant (txDifsWait s) := by
  have hc : contending s.tx.state = true := by rw [hst]; rfl
  unfold txDifsWait
  split_ifs with hb hd hn
  · exact hs.after_waitForIdle hc
  · rcases enterBackoff_cases s with ⟨_, e⟩ | ⟨hne, e⟩ <;> rw [e]
    · exact hs.after_toTransmit hc
    · exact hs.after_contending hc rfl rfl rfl rfl le_rfl rfl (fun _ => hne) fun _ => hn
  · exact hs.after_toTransmit hc
  · exact hs

/-- The slot counted is one that BACKOFF has (R186). -/
theorem after_txBackoffSlot {s : State} (hs : TransmitInvariant s) (hst : s.tx.state = .backoffSlot) :
    TransmitInvariant (txBackoffSlot s) := by
  have hc : contending s.tx.state = true := by rw [hst]; rfl
  have hneed := hs.pausedNeeds (.inr hst)
  have hle : (countSlot s).cp.backoff.toNat ≤ s.cp.backoff.toNat := by
    have hne := BitVec.toNat_ne.1 (hs.slotCounts hst)
    rw [countSlot_backoff_toNat (Nat.pos_of_ne_zero hne)]
    exact Nat.sub_le _ _
  unfold txBackoffSlot
  split_ifs
  · exact hs.after_contending hc rfl rfl rfl rfl le_rfl rfl nofun fun _ => hneed
  · rcases enterBackoff_cases (countSlot s) with ⟨_, e⟩ | ⟨hne, e⟩ <;> rw [e]
    · exact hs.after_contending hc rfl rfl rfl rfl hle rfl nofun nofun
    · exact hs.after_contending hc rfl rfl rfl rfl hle rfl (fun _ => hne) fun _ => hneed
  · exact hs

theorem after_txWaitChannelIdle {s : State} (hs : TransmitInvariant s) (hst : s.tx.state = .waitChannelIdle) :
    TransmitInvariant (txWaitChannelIdle s) := by
  unfold txWaitChannelIdle
  split_ifs
  · exact hs
  · exact hs.after_enterDifsWait (by rw [hst]; rfl)

/-! ## IDLE (R174 to R180) -/

theorem idle_rest {s : State} (hs : TransmitInvariant s) (hst : s.tx.state = .idle) :
    s.tx.txhValid = false ∧ s.tx.ackrValid = false := by
  rw [hs.headValid, hs.ackrValid, headInFlight, hst]
  exact ⟨rfl, rfl⟩

/-- The beacon inserted is fresh (R176). -/
theorem after_beaconCheck {s : State} (hs : TransmitInvariant s) : TransmitInvariant (beaconCheck s) := by
  cases hdue : beaconDue s
  · rw [beaconCheck_of_not_due hdue]
    exact hs
  · have hco : TransmitInvariant (coalesced s) :=
      hs.of_tx rfl rfl rfl rfl fun e he => .inl (List.mem_filter.1 he).1
    rw [beaconCheck_of_due hdue]
    rcases insertBeacon_cases (be64 (now s)) (coalesced s) with ⟨_, e⟩ | ⟨_, e⟩ <;> rw [e]
    · refine hco.of_tx rfl rfl rfl rfl fun x hx => (List.mem_cons.1 hx).symm.imp_right fun hx => ?_
      rw [hx]
      exact ⟨rfl, rfl⟩
    · exact hco

/-- A loaded head is fresh and finds the window at rest (R179, R204). -/
theorem after_load {s t : State} {e : OutEntry} {q : List OutEntry} (hs : TransmitInvariant s)
    (hmax : 1 ≤ s.cfg.cwMax) (hst : s.tx.state = .idle) (hq : s.oq = e :: q) (hk : e.frame.kind ≠ .ack)
    (cfg : t.cfg = s.cfg) (cp : t.cp = s.cp) (oq : t.oq = q)
    (tx : t.tx = { s.tx with
            txh := { e with acked := false }, txhValid := true
            deadline := t.tx.deadline, needBackoff := t.tx.needBackoff, state := t.tx.state })
    (target : contending t.tx.state = true) (slot : t.tx.state ≠ .backoffSlot)
    (paused : t.tx.state = .waitChannelIdle → t.tx.needBackoff = true) : TransmitInvariant t := by
  obtain ⟨hrest, hackr⟩ := hs.idle_rest hst
  obtain ⟨⟨hfresh, hretry⟩, hqueued⟩ := List.forall_mem_cons.1 (hq ▸ hs.queuedFresh)
  have hretries : e.retries = 0#8 := congrArg OutEntry.retries hfresh
  have hcw : s.cp.cw = cwReset := hs.windowAtRest hrest
  have hvalid : t.tx.txhValid = true := by rw [tx]
  have hcontrol : ControlSound t.tx t.cp.backoff :=
    controlSound_of_contending target hvalid (by rw [tx]; exact hackr) (fun h => absurd h slot)
      fun h => h.elim paused fun h => absurd h slot
  refine of_parts hcontrol (fun _ => ?_) (fun hv => ?_) ?_ ?_ (by rw [oq]; exact hqueued)
  · rw [cfg, cp, tx, hcw]
    refine ⟨hk, ?_, ?_, ?_, fun h => absurd hretries h⟩
    · simp [hretries, hmax]
    · simp [hretries]
    · simp [hretries, hretry]
  · cases hvalid.symm.trans hv
  · rw [cfg, cp]
    exact hs.windowRange
  · rw [cfg, cp]
    exact hs.backoffRange

/-- The ACK path is entered with the head as it is, in flight or not (R198, R200). -/
theorem after_enterAckPath {s : State} {e : OutEntry} {q : List OutEntry} {ret : Bool} (hs : TransmitInvariant s)
    (hq : s.oq = e :: q) (valid : s.tx.txhValid = ret) (wait : ret = true → isUnicastData s.tx.txh.frame = true) :
    TransmitInvariant (enterAckPath ret e q s) := by
  refine hs.of_control rfl rfl rfl rfl rfl le_rfl (fun x hx => .inl ?_) ⟨valid, rfl, wait, nofun, nofun, nofun⟩
  rw [hq]
  exact List.mem_cons_of_mem e hx

theorem after_txIdle {s : State} (hs : TransmitInvariant s) (hmax : 1 ≤ s.cfg.cwMax) (hst : s.tx.state = .idle) :
    TransmitInvariant (txIdle s) := by
  have hb := hs.after_beaconCheck
  have hbst : (beaconCheck s).tx.state = .idle := by rwa [beaconCheck_tx]
  have hbmax : 1 ≤ (beaconCheck s).cfg.cwMax := by rwa [beaconCheck_cfg]
  rw [txIdle]
  rcases serveQueue_cases (beaconCheck s) with
    ⟨_, e⟩ | ⟨x, q, hq, _, e⟩ | ⟨x, q, hq, hk, _, e⟩ | ⟨x, q, hq, hk, _, e⟩ <;> rw [e]
  · exact hb
  · exact hb.after_enterAckPath hq (hb.idle_rest hbst).1 nofun
  · exact hb.after_load hbmax hbst hq hk rfl rfl rfl rfl rfl nofun fun _ => rfl
  · exact hb.after_load hbmax hbst hq hk rfl rfl rfl rfl rfl nofun nofun

/-! ## TRANSMIT and AWAIT_ACK (R188 to R199) -/

/-- A resolved head leaves the window at rest, and a draw from it is within CW_MAX (R192, R193). -/
theorem after_resolved {s t : State} (hs : TransmitInvariant s) (hmax : 1 ≤ s.cfg.cwMax)
    (hackr : s.tx.ackrValid = false) (hr : HeadResolved s t) : TransmitInvariant t := by
  obtain ⟨cfg, tx, cw, backoff, oq⟩ := hr
  refine of_parts ?_ ?_ (fun _ => cw) ?_ ?_ fun e he => hs.queuedFresh e (oq e he)
  · rw [tx]
    exact ⟨rfl, hackr, nofun, nofun, nofun, nofun⟩
  · rw [tx]
    exact nofun
  · rw [cw]
    exact ⟨le_rfl, le_max_left _ _⟩
  · rw [cfg]
    exact backoff.trans hmax

/-- In AWAIT_ACK a unicast DATA frame is in flight and no ACK is being sent (R189). -/
theorem awaitAck_head {s : State} (hs : TransmitInvariant s) (hst : s.tx.state = .awaitAck) :
    s.tx.txhValid = true ∧ s.tx.ackrValid = false ∧ isUnicastData s.tx.txh.frame = true := by
  refine ⟨?_, ?_, hs.waitsUnicast (by rw [awaitingAck, hst])⟩
  · rw [hs.headValid, headInFlight, hst]
  · rw [hs.ackrValid, hst]
    rfl

/-- A retried head is unicast DATA, and the window grows with the retries (R195, R204). -/
theorem after_retried {s t : State} (hs : TransmitInvariant s) (hmax : 1 ≤ s.cfg.cwMax)
    (hlimit : s.cfg.retryLimit ≤ 255) (hst : s.tx.state = .awaitAck) (hr : HeadRetried s t) :
    TransmitInvariant t := by
  obtain ⟨cfg, below, tx, cw, backoff, oq⟩ := hr
  obtain ⟨hvalid, hackr, hunicast⟩ := hs.awaitAck_head hst
  obtain ⟨hkind, hgrowth, _, _, _⟩ := hs.head hvalid
  have htvalid : t.tx.txhValid = true := by rw [tx]; exact hvalid
  have hretries : (s.tx.txh.retries + 1).toNat = s.tx.txh.retries.toNat + 1 :=
    BitVec.toNat_add_of_lt (by change _ + 1 < 2 ^ 8; omega)
  refine of_parts ?_ (fun _ => ?_) (fun hv => ?_) ?_ ?_ (by rw [oq]; exact hs.queuedFresh)
  · rw [tx]
    exact controlSound_of_contending rfl hvalid hackr nofun fun _ => rfl
  · have hne : s.tx.txh.retries + 1 ≠ 0#8 := BitVec.toNat_ne.2 (by rw [hretries]; exact Nat.succ_ne_zero _)
    rw [cfg, tx]
    refine ⟨hkind, ?_, by rw [hretries]; exact below, iff_of_true rfl hne, fun _ => hunicast⟩
    rw [cw, hgrowth, hretries, pow_succ]
    omega
  · cases htvalid.symm.trans hv
  · have hpos := hs.windowRange.1
    rw [cfg, cw]
    omega
  · rw [cfg]
    omega

/-- A head that is not unicast DATA was never retried, so the window is at rest (R86, R204). -/
theorem cw_of_not_unicast {s : State} (hs : TransmitInvariant s) (hmax : 1 ≤ s.cfg.cwMax)
    (hvalid : s.tx.txhValid = true) (hu : ¬ isUnicastData s.tx.txh.frame = true) : s.cp.cw = cwReset := by
  obtain ⟨_, hgrowth, _, _, hunicast⟩ := hs.head hvalid
  have hretries : s.tx.txh.retries = 0#8 := not_not.1 (mt hunicast hu)
  apply BitVec.eq_of_toNat_eq
  rw [hgrowth, hretries]
  exact min_eq_left hmax

theorem after_txTransmit {s t : State} (hs : TransmitInvariant s) (hmax : 1 ≤ s.cfg.cwMax)
    (hst : s.tx.state = .transmit) (h : txStep s = .next t) : TransmitInvariant t := by
  obtain ⟨hvalid, hackr⟩ := hs.contending_valid (by rw [hst]; rfl)
  obtain ⟨u, hu, _, hunicast, hother⟩ := transmitHandsFrameToChannel s hst
  cases hu.symm.trans h
  by_cases hd : s.tx.txh.frame.kind = .data ∧ s.tx.txh.frame.dest ≠ bcast
  · rw [hunicast hd]
    exact hs.of_control rfl rfl rfl rfl rfl le_rfl (fun _ => .inl)
      ⟨hvalid, hackr, fun _ => isUnicastData_iff.2 hd, nofun, nofun, nofun⟩
  · obtain ⟨e, hdraw, _⟩ := hother (by tauto)
    have hcw : s.cp.cw = cwReset := hs.cw_of_not_unicast hmax hvalid (mt isUnicastData_iff.1 hd)
    refine hs.after_resolved hmax hackr ⟨(txStep_writes h).cfg, congrArg State.tx e, ?_, ?_, ?_⟩
    · exact (congrArg (·.cp.cw) e).trans hcw
    · rw [hcw] at hdraw
      exact hdraw
    · rw [e]
      exact fun _ => id

theorem after_txAwaitAck {s t : State} (hs : TransmitInvariant s) (hc : s.cfg.ok = true)
    (hst : s.tx.state = .awaitAck) (h : txStep s = .next t) : TransmitInvariant t := by
  obtain ⟨hmax, hfits, hlimit⟩ := windowBounds hc
  obtain ⟨hvalid, hackr, hunicast⟩ := hs.awaitAck_head hst
  cases txStep_awaitAck_moves hfits hst h with
  | resolve hr => exact hs.after_resolved hmax hackr hr
  | retry hr => exact hs.after_retried hmax hlimit hst hr
  | serveAck e q front kind => exact hs.after_enterAckPath front hvalid fun _ => hunicast
  | poll => exact hs

/-! ## SEND_ACK_SIFS (R201 to R203) -/

/-- The ACK sent, TX is back where ACK_RETURN says, with the head as it was (R203). -/
theorem after_txSendAckSifs {s : State} (hs : TransmitInvariant s) (hst : s.tx.state = .sendAckSifs) :
    TransmitInvariant (txSendAckSifs s) := by
  have hvalid : s.tx.txhValid = s.tx.ackReturn := by rw [hs.headValid, headInFlight, hst]
  have hwait : s.tx.ackReturn = true → isUnicastData s.tx.txh.frame = true := fun h =>
    hs.waitsUnicast (by rw [awaitingAck, hst]; exact h)
  unfold txSendAckSifs
  split_ifs
  · refine hs.of_control rfl rfl rfl rfl rfl le_rfl (fun _ => .inl) ?_
    rw [sendAck_tx]
    cases hret : s.tx.ackReturn
    · exact ⟨hvalid.trans hret, rfl, nofun, nofun, nofun, nofun⟩
    · exact ⟨hvalid.trans hret, rfl, fun _ => hwait hret, nofun, nofun, nofun⟩
  · exact hs
  · exact hs
  · refine hs.of_control rfl rfl rfl rfl rfl le_rfl (fun _ => .inl) ?_
    exact ⟨hs.headValid, hs.ackrValid, hs.waitsUnicast, hs.slotCounts, hs.pausedNeeds, hs.stateUsed⟩

/-! ## Every agent -/

theorem after_txStep {s t : State} (hs : TransmitInvariant s) (hc : s.cfg.ok = true) (h : txStep s = .next t) :
    TransmitInvariant t := by
  obtain ⟨hmax, _, _⟩ := windowBounds hc
  rcases txStep_next h with
    ⟨hst, rfl⟩ | ⟨hst, rfl⟩ | ⟨hst, rfl⟩ | ⟨hst, _⟩ | ⟨hst, _⟩ | ⟨hst, rfl⟩ | ⟨hst, rfl⟩
  · exact hs.after_txIdle hmax hst
  · exact hs.after_txDifsWait hst
  · exact hs.after_txBackoffSlot hst
  · exact hs.after_txTransmit hmax hst h
  · exact hs.after_txAwaitAck hc hst h
  · exact hs.after_txWaitChannelIdle hst
  · exact hs.after_txSendAckSifs hst

/-- RX marks the head as acked and queues fresh ACKs (R227, R231). -/
theorem after_dispatch {s : State} (d : RxFrame) (hs : TransmitInvariant s) : TransmitInvariant (dispatch d s) := by
  obtain ⟨hcfg, _, _, htx, hcp, hoq, _⟩ := dispatch_writes d s
  have hqueued : ∀ e ∈ (dispatch d s).oq, e ∈ s.oq ∨ e = freshEntry e.frame ∧ e.frame.retry = false := by
    rcases hoq with e | ⟨n, a, _, e⟩ <;> rw [e]
    · exact fun _ => .inl
    · refine fun x hx => (List.mem_cons.1 hx).symm.imp_right fun hx => ?_
      rw [hx]
      exact ⟨rfl, rfl⟩
  have hcw : (dispatch d s).cp.cw = s.cp.cw := by rw [hcp]
  have hbackoff : (dispatch d s).cp.backoff = s.cp.backoff := by rw [hcp]
  rcases htx with e | e
  · exact hs.of_tx hcfg e hcw hbackoff hqueued
  · refine hs.of_control hcfg hcw (by rw [e]) (by rw [e]) (by rw [e]) (by rw [hbackoff]) hqueued ?_
    rw [e, hbackoff]
    exact ⟨hs.headValid, hs.ackrValid, hs.waitsUnicast, hs.slotCounts, hs.pausedNeeds, hs.stateUsed⟩

/-- A host agent queues what an accepted SEND builds, which is fresh, and writes nothing else of this (R274). -/
theorem after_hostMoves {h : Nat} {s t : State} (hs : TransmitInvariant s) (hm : HostMoves h s t) :
    TransmitInvariant t := by
  cases hm with
  | accept a p fits room =>
    refine hs.of_tx rfl rfl rfl rfl fun e he => (List.mem_append.1 he).imp_right fun he => ?_
    rw [List.mem_singleton.1 he]
    exact ⟨rfl, rfl⟩
  | hold | reject | issue | complete | answer => exact hs.of_tx rfl rfl rfl rfl fun _ => .inl

end TransmitInvariant

/-- Settles O43: a TX step keeps where TX stands and what is claimed of its head state by state, and the other
agents only queue fresh frames and mark the head as acked. -/
theorem everyStepKeepsTransmitInvariant : Obligations.EveryStepKeepsTransmitInvariant := by
  intro s t hs he
  have hc := (step_next he).1
  refine (step_preserves (P := fun s => s.cfg.ok = true ∧ TransmitInvariant s) ?outside ?transmit ?corrupt
    ?receive ?host ⟨hc, hs⟩ he).2
  case outside => exact fun s _ _ _ ⟨hc, hs⟩ => ⟨hc, hs.of_tx rfl rfl rfl rfl fun _ => .inl⟩
  case transmit => exact fun s t ⟨hc, hs⟩ he => ⟨by rwa [(txStep_writes he).cfg], hs.after_txStep hc he⟩
  case corrupt => exact fun s ⟨hc, hs⟩ => ⟨hc, hs.of_tx rfl rfl rfl rfl fun _ => .inl⟩
  case receive => exact fun d s ⟨hc, hs⟩ => ⟨by rwa [(dispatch_writes d s).cfg], hs.after_dispatch d⟩
  case host => exact fun h s t ⟨hc, hs⟩ _ hm => ⟨by rwa [hm.cfg], hs.after_hostMoves hm⟩

end Sys2Proof.Machine

/-! # Reception (43_receive.md): what RX does with each class of frame. -/

namespace Sys2Proof

/-! ## A beacon's timestamp read back (R9, R147) -/

theorem append_halves64 (v : BitVec 64) : (v.extractLsb' 32 32 ++ v.extractLsb' 0 32 : BitVec 64) = v :=
  (BitVec.extractLsb'_append_extractLsb'_eq_extractLsb' rfl).trans BitVec.extractLsb'_eq_self

theorem extractLsb'_within {n : Nat} (v : BitVec n) {j l k m : Nat} (h : k + m ≤ l) :
    (v.extractLsb' j l).extractLsb' k m = v.extractLsb' (j + k) m := by
  ext i hi
  simp only [BitVec.getElem_extractLsb', BitVec.getLsbD_extractLsb', Nat.add_assoc, show k + i < l by omega,
    decide_true, Bool.true_and]

theorem be64_eq_be32_halves (v : BitVec 64) : be64 v = be32 (v.extractLsb' 32 32) ++ be32 (v.extractLsb' 0 32) := by
  simp [be64, be32, extractLsb'_within]

/-- RdBE64 reads what BE64 wrote (R9). -/
theorem rdBE64_be64 (v : BitVec 64) (r : Bytes) : rdBE64 (be64 v ++ r) 0 = v := by
  have hlow := rdBE32_append (be32 (v.extractLsb' 32 32)) (be32 (v.extractLsb' 0 32) ++ r) 0
  rw [rdBE32_be32, be32_length] at hlow
  rw [rdBE64, be64_eq_be32_halves, List.append_assoc, rdBE32_be32, hlow, append_halves64]

end Sys2Proof

namespace Sys2Proof.Machine

/-! ## The dispatch, case by case (R222 to R229) -/

theorem iqFull_of_ne {s : State} (h : s.iq.length ≠ s.cfg.iqCap) : iqFull s = false := beq_eq_false_iff_ne.2 h

theorem bcastPass_of_passes {n : Seq} {s : State} (h : PassesFilter n s.rx.bcExp) :
    bcastPass n s = some (setBcExp (if n = s.rx.bcExp then n + 1 else s.rx.bcExp) s) := by
  unfold bcastPass
  by_cases he : n = s.rx.bcExp
  · rw [seqCompare_equal.2 (seqDistance_eq_zero.2 he), if_pos he]
  · have hd : seqDistance n s.rx.bcExp ≠ 0 := mt seqDistance_eq_zero.1 he
    rw [seqCompare_ahead.2 ⟨Nat.one_le_iff_ne_zero.2 hd, h⟩, if_neg he]
    rfl

theorem passesFilter_of_bcastPass {n : Seq} {s t : State} (h : bcastPass n s = some t) :
    PassesFilter n s.rx.bcExp := by
  rcases bcastPass_some h with ⟨hc, _⟩ | ⟨hc, _⟩
  · exact (seqCompare_equal.1 hc).trans_le (Nat.zero_le _)
  · exact (seqCompare_ahead.1 hc).2

/-- Outside case 2 a full IQ drops the frame (R225). -/
theorem dispatch_of_full {d : RxFrame} {s : State} (hf : iqFull s = true) (hb : ¬ BeaconCase d s) :
    dispatch d s = record .insufficientBufferSpace s := by
  rcases dispatch_cases d s with ⟨_, hk, hd, hen, hp, _⟩ | ⟨_, e⟩ | ⟨_, hr, _⟩ | ⟨hr, _⟩ | ⟨hr, _⟩ | ⟨hr, _⟩
  · exact absurd ⟨hk, eq_of_beq hd, hen, passesFilter_of_bcastPass hp⟩ hb
  · exact e
  all_goals cases hf.symm.trans hr

/-- Case 2 (R224). -/
theorem dispatch_of_beaconCase {d : RxFrame} {s : State} (h : BeaconCase d s) :
    dispatch d s
      = absorbPayload d.payload (setBcExp (if d.seq = s.rx.bcExp then d.seq + 1 else s.rx.bcExp) s) := by
  obtain ⟨hk, hd, hen, hp⟩ := h
  simp [dispatch, isBroadcast, hk, hd, hen, bcastPass_of_passes hp]

theorem ackMatch_iff {d : RxFrame} {s : State} :
    ackMatch d s = true ↔ s.tx.txhValid = true ∧ s.tx.txh.frame.kind = .data ∧ s.tx.txh.frame.dest = d.src
      ∧ s.tx.txh.frame.seq = d.seq := by
  simp [ackMatch, and_assoc]

/-- With room in IQ, a frame changes nothing or is in case 2, 4, 5 or 6 (R222, R228). -/
theorem dispatch_ignored_or {s : State} (d : RxFrame) (hf : iqFull s = false) :
    dispatch d s = s
    ∨ BeaconCase d s
    ∨ (d.kind = .data ∧ d.dest = bcast ∧ PassesFilter d.seq s.rx.bcExp)
    ∨ (d.kind = .ack ∧ d.dest = s.cfg.myAddr ∧ s.tx.txhValid = true ∧ s.tx.txh.frame.kind = .data
        ∧ s.tx.txh.frame.dest = d.src ∧ s.tx.txh.frame.seq = d.seq)
    ∨ (d.kind = .data ∧ d.dest = s.cfg.myAddr) := by
  rcases dispatch_cases d s with
    ⟨_, hk, hd, hen, hp, _⟩ | ⟨hr, _⟩ | ⟨_, _, hk, hd, hp, _⟩ | ⟨_, hm, hk, ha, _⟩ | ⟨_, hm, hk, _⟩ | ⟨_, e⟩
  · exact .inr (.inl ⟨hk, eq_of_beq hd, hen, passesFilter_of_bcastPass hp⟩)
  · cases hf.symm.trans hr
  · exact .inr (.inr (.inl ⟨hk, eq_of_beq hd, passesFilter_of_bcastPass hp⟩))
  · exact .inr (.inr (.inr (.inl ⟨hk, eq_of_beq hm, ackMatch_iff.1 ha⟩)))
  · exact .inr (.inr (.inr (.inr ⟨hk, eq_of_beq hm⟩)))
  · exact .inl e

/-- Case 6: a DATA frame to this station goes to the tracker of its source (R229). -/
theorem exec_unicastData {s : State} (retry : Bool) (n : Seq) (src : Addr) (p : Bytes)
    (hroom : s.iq.length ≠ s.cfg.iqCap) (hm : s.cfg.myAddr ≠ bcast) :
    exec (.data retry n s.cfg.myAddr src p) s = .next (trackSequence ⟨src, n, .data, p⟩ s) := by
  rw [exec_of_receivedFrame rfl]
  simp [dispatch, dispatchRoom, dataEntry, isBroadcast, isMine, iqFull_of_ne hroom, hm]

/-! ## The tracker, verdict by verdict (R232 to R237) -/

theorem trackSequence_equal {e : InEntry} {s : State} (h : e.seq = expectedFrom s e.src) :
    trackSequence e s = acceptInOrder e (sightSource e.src s) := by
  simp only [trackSequence, inExpAt_sightSource, seqCompare_equal.2 (seqDistance_eq_zero.2 h)]

theorem trackSequence_ahead {e : InEntry} {s : State} (h1 : 1 ≤ seqDistance e.seq (expectedFrom s e.src))
    (h2 : seqDistance e.seq (expectedFrom s e.src) ≤ 2047) :
    trackSequence e s = bufferAhead e (sightSource e.src s) := by
  simp only [trackSequence, inExpAt_sightSource, seqCompare_ahead.2 ⟨h1, h2⟩]

theorem trackSequence_behind {e : InEntry} {s : State} (h : 2048 ≤ seqDistance e.seq (expectedFrom s e.src)) :
    trackSequence e s = enqueueAck e.src e.seq (sightSource e.src s) := by
  simp only [trackSequence, inExpAt_sightSource, seqCompare_behind.2 h]

/-- A first sighting writes RX's tables at most (R234). -/
theorem sightSource_eq (a : Addr) (s : State) : sightSource a s = { s with rx := (sightSource a s).rx } := by
  rcases sightSource_cases a s with ⟨_, e⟩ | ⟨_, e⟩ <;> rw [e]
  rfl

theorem oqWithAck_sightSource (b a : Addr) (n : Seq) (s : State) :
    oqWithAck (sightSource b s) a n = oqWithAck s a n := by
  rw [sightSource_eq]
  rfl

/-- What the equal case does before Drain: deliver, ACK, expect the next sequence (R233). -/
def acceptExpected (e : InEntry) (s : State) : State :=
  setInExp e.src (e.seq + 1) (enqueueAck e.src e.seq (deliver e s))

theorem acceptInOrder_eq (e : InEntry) (s : State) : acceptInOrder e s = drain e.src (acceptExpected e s) := rfl

theorem acceptExpected_eq (e : InEntry) (s : State) :
    acceptExpected e s
      = { s with oq := oqWithAck s e.src e.seq, rx := (acceptExpected e s).rx, iq := s.iq ++ [e] } := by
  rw [acceptExpected, enqueueAck_eq]
  rfl

@[simp] theorem inSeenAt_acceptExpected (e : InEntry) (s : State) (a : Addr) :
    inSeenAt (acceptExpected e s) a = inSeenAt s a := by simp [acceptExpected]

@[simp] theorem inExpAt_acceptExpected (e : InEntry) (s : State) : inExpAt (acceptExpected e s) e.src = e.seq + 1 := by
  simp [acceptExpected]

@[simp] theorem windowAt_acceptExpected (e : InEntry) (s : State) (a : Addr) :
    windowAt (acceptExpected e s) a = windowAt s a := by simp [acceptExpected]

theorem otherSourcesKept_acceptExpected (e : InEntry) (s : State) : OtherSourcesKept e.src s (acceptExpected e s) :=
  otherSourcesKept_trans (otherSourcesKept_of_rx (by simp) (by simp)) (otherSourcesKept_setInExp e.src _ (e.seq + 1))

theorem otherSourcesKept_enqueueAck (a b : Addr) (n : Seq) (s : State) : OtherSourcesKept a s (enqueueAck b n s) :=
  otherSourcesKept_of_rx (enqueueAck_cfg b n s) (enqueueAck_rx b n s)

theorem otherSourcesKept_bufferAhead (e : InEntry) (s : State) : OtherSourcesKept e.src s (bufferAhead e s) := by
  have hrecord : OtherSourcesKept e.src s (record .unspecifiedError s) := otherSourcesKept_of_rx rfl rfl
  rcases bufferAhead_cases e s with ⟨_, h⟩ | ⟨_, h⟩ <;> rw [h]
  · exact otherSourcesKept_trans hrecord (otherSourcesKept_setWindow _ _ _)
  · exact hrecord

@[simp] theorem inSeenAt_bufferAhead (e : InEntry) (s : State) (a : Addr) :
    inSeenAt (bufferAhead e s) a = inSeenAt s a := by
  rcases bufferAhead_cases e s with ⟨_, h⟩ | ⟨_, h⟩ <;> simp [h]

@[simp] theorem inExpAt_bufferAhead (e : InEntry) (s : State) (a : Addr) :
    inExpAt (bufferAhead e s) a = inExpAt s a := by
  rcases bufferAhead_cases e s with ⟨_, h⟩ | ⟨_, h⟩ <;> simp [h]

theorem windowAt_bufferAhead (e : InEntry) (s : State) :
    windowAt (bufferAhead e s) e.src
      = if seqDistance e.seq (inExpAt s e.src) - 1 < s.cfg.winSlots then
          (windowAt s e.src).set (seqDistance e.seq (inExpAt s e.src) - 1) (some e)
        else windowAt s e.src := by
  rcases bufferAhead_cases e s with ⟨hi, h⟩ | ⟨hi, h⟩ <;> simp [h, hi]

/-- Of the state outside RX's tables the ahead case writes LAST_EVENT only (R236). -/
theorem bufferAhead_eq (e : InEntry) (s : State) :
    bufferAhead e s = { s with cp := { s.cp with lastEvent := 2#8 }, rx := (bufferAhead e s).rx } := by
  rcases bufferAhead_cases e s with ⟨_, h⟩ | ⟨_, h⟩ <;> rw [h] <;> rfl

@[simp] theorem bufferAhead_cfg (e : InEntry) (s : State) : (bufferAhead e s).cfg = s.cfg := by
  rw [bufferAhead_eq]

@[simp] theorem inSeenAt_drain (a : Addr) (s : State) : inSeenAt (drain a s) a = inSeenAt s a :=
  (drainLoop_grows a _ s).2.1

theorem otherSourcesKept_drain (a : Addr) (s : State) : OtherSourcesKept a s (drain a s) :=
  (drainLoop_grows a _ s).2.2

/-- The tracker writes the entries of the frame's source only. -/
theorem otherSourcesKept_trackSequence (e : InEntry) (s : State) : OtherSourcesKept e.src s (trackSequence e s) := by
  refine otherSourcesKept_trans (otherSourcesKept_sightSource e.src s) ?_
  rcases trackSequence_cases e s with ⟨_, h⟩ | ⟨_, h⟩ | ⟨_, h⟩ <;> rw [h]
  · exact otherSourcesKept_trans (otherSourcesKept_acceptExpected _ _) (otherSourcesKept_drain _ _)
  · exact otherSourcesKept_bufferAhead _ _
  · exact otherSourcesKept_enqueueAck _ _ _ _

theorem trackSequence_cfg (e : InEntry) (s : State) : (trackSequence e s).cfg = s.cfg := by
  rcases trackSequence_cases e s with ⟨_, h⟩ | ⟨_, h⟩ | ⟨_, h⟩ <;> simp [h, acceptInOrder]

/-- After its frame a source is seen, whatever the verdict (R234). -/
theorem inSeenAt_trackSequence (e : InEntry) (s : State) : inSeenAt (trackSequence e s) e.src = true := by
  rcases trackSequence_cases e s with ⟨_, h⟩ | ⟨_, h⟩ | ⟨_, h⟩ <;> simp [h, acceptInOrder_eq]

/-! ## Drain (R235) -/

/-- At an empty slot 0 the loop shifts once and ends, however much fuel is left. -/
theorem drainLoop_of_gap {a : Addr} {s : State} (n : Nat) (h : (windowAt s a).head? = some none) :
    drainLoop a (n + 1) s = setWindow a ((windowAt s a).tail ++ [none]) s := by
  simp [drainLoop_succ, h]

/-- An entry in slot 0 that finds IQ full is dropped with a status, the window shifted once. -/
theorem drainLoop_of_full {a : Addr} {s : State} {c : InEntry} (n : Nat) (h : (windowAt s a).head? = some (some c))
    (hf : iqFull s = true) :
    drainLoop a (n + 1) s = record .insufficientBufferSpace (setWindow a ((windowAt s a).tail ++ [none]) s) := by
  simp [drainLoop_succ, h, hf]

/-- Drain writes LAST_EVENT, RX's tables and IQ at most. -/
theorem drain_eq (a : Addr) (s : State) :
    drain a s = { s with
      cp := { s.cp with lastEvent := (drain a s).cp.lastEvent }, rx := (drain a s).rx, iq := (drain a s).iq } :=
  state_ext (by simp) (drainLoop_cp a _ s) (by simp) (by simp) rfl rfl (by simp) (by simp) (by simp) (by simp)
    (by simp)

/-- From `s` to `t` the run was delivered and expected past; of RX's tables only what `a` has may differ. -/
structure RunDelivered (a : Addr) (run : List InEntry) (s t : State) : Prop where
  frame  : t = { s with iq := s.iq ++ run, rx := t.rx }
  exp    : inExpAt t a = inExpAt s a + BitVec.ofNat 12 run.length
  seen   : inSeenAt t a = inSeenAt s a
  others : OtherSourcesKept a s t

/-- A shift of the window of `a` delivers nothing. -/
theorem RunDelivered.then_setWindow {a : Addr} {run : List InEntry} {s t : State} (h : RunDelivered a run s t)
    (v : Window) : RunDelivered a run s (setWindow a v t) := by
  obtain ⟨frame, exp, seen, others⟩ := h
  refine ⟨?_, exp, seen, otherSourcesKept_trans others (otherSourcesKept_setWindow a t v)⟩
  rw [frame]
  rfl

/-- Drain delivers the run at the front of the window; what follows it decides how the loop ends. -/
theorem drain_run {a : Addr} {s : State} {run : List InEntry} {w : Window}
    (hw : windowAt s a = run.map some ++ w) (hl : (windowAt s a).length = s.cfg.winSlots)
    (hq : s.iq.length + run.length ≤ s.cfg.iqCap) :
    ∃ t, drain a s = drainLoop a (w.length + 1) t ∧ RunDelivered a run s t
      ∧ windowAt t a = w ++ List.replicate run.length none := by
  obtain ⟨t, ht, frame, window, exp, seen, others⟩ := drainLoop_run a run (w.length + 1) s w hw hq
  refine ⟨t, ?_, ⟨frame, exp, seen, others⟩, window⟩
  rw [hw, List.length_append, List.length_map] at hl
  rw [drain, ← hl, Nat.add_assoc, ht]

/-- Settles O20: after the run the loop shifts once more, past the gap, past the frame that found IQ full, or past
the end of a full window, where an empty slot has been shifted in. -/
theorem drainDeliversUntilGapOrFull : Obligations.DrainDeliversUntilGapOrFull := by
  refine fun src s run rest hq => ⟨fun hw hl => ?gap, fun c hw hl hfull => ?full, fun hw hl hpos => ?ended⟩
  case gap =>
    obtain ⟨t, ht, hrun, hwin⟩ := drain_run hw hl hq
    rw [ht, drainLoop_of_gap _ (by simp [hwin]), hwin]
    obtain ⟨frame, exp, seen, others⟩ := hrun.then_setWindow (rest ++ List.replicate (run.length + 1) none)
    refine ⟨_, rfl, ?_⟩
    rw [List.cons_append, List.tail_cons, List.append_assoc, ← List.replicate_succ']
    exact ⟨frame, windowAt_setWindow_same _ _ _, exp, seen, others⟩
  case full =>
    obtain ⟨t, ht, hrun, hwin⟩ := drain_run hw hl hq
    have hf : iqFull t = true := by
      rw [hrun.frame]
      simp [iqFull, hfull]
    rw [ht, drainLoop_of_full (c := c) _ (by simp [hwin]) hf, hwin]
    obtain ⟨frame, exp, seen, others⟩ := hrun.then_setWindow (rest ++ List.replicate (run.length + 1) none)
    refine ⟨_, rfl, ?_⟩
    rw [List.cons_append, List.tail_cons, List.append_assoc, ← List.replicate_succ']
    refine ⟨?_, by simp, exp, seen, otherSourcesKept_trans others (otherSourcesKept_of_rx rfl rfl)⟩
    rw [frame]
    rfl
  case ended =>
    obtain ⟨t, ht, hrun, hwin⟩ := drain_run (w := []) (by simpa using hw) hl hq
    obtain ⟨k, hk⟩ : ∃ k, run.length = k + 1 := by
      rw [hw, List.length_map] at hl
      exact Nat.exists_eq_succ_of_ne_zero (by omega)
    have hempty : emptyWindow s.cfg = List.replicate k none ++ [none] := by
      rw [emptyWindow, ← hl, hw, List.length_map, hk, List.replicate_succ']
    rw [ht, drainLoop_of_gap _ (by simp [hwin, hk, List.replicate_succ]), hwin, hk, hempty]
    obtain ⟨frame, exp, seen, others⟩ := hrun.then_setWindow (List.replicate k none ++ [none])
    exact ⟨_, rfl, frame, windowAt_setWindow_same _ _ _, hk ▸ exp, seen, others⟩

/-! ## Received DATA to this station (R233 to R237) -/

/-- Settles O19: the equal verdict, on the state after a first sighting. -/
theorem inOrderDataIsDelivered : Obligations.InOrderDataIsDelivered := by
  intro retry n src p s hroom hm hn
  set e : InEntry := ⟨src, n, .data, p⟩
  set v := sightSource src s with hv
  set u := acceptExpected e v with hu
  have hut : trackSequence e s = drain src u := trackSequence_equal hn
  have hframe : u = { s with oq := oqWithAck s src n, rx := u.rx, iq := s.iq ++ [e] } := by
    rw [hu, acceptExpected_eq, hv, oqWithAck_sightSource, sightSource_eq]
  have hwin : windowAt u src = windowFrom s src := by simp [hu, hv]
  have hexp : inExpAt u src = n + 1 := inExpAt_acceptExpected e v
  have hothers : OtherSourcesKept src s u :=
    otherSourcesKept_trans (otherSourcesKept_sightSource src s) (otherSourcesKept_acceptExpected e v)
  have hiq : u.iq = s.iq ++ [e] := by rw [hframe]
  have hcp : u.cp = s.cp := by rw [hframe]
  refine ⟨u, drain src u, ?_, hframe, by simp [hu, hv], hexp, hwin, hothers, rfl, ?_, by simp, by simp [hu, hv],
    fun hgap => ?_, otherSourcesKept_trans hothers (otherSourcesKept_drain src u), ?_⟩
  · rw [exec_unicastData retry n src p hroom hm, hut]
  · rw [← hiq]
    exact (drainLoop_grows src _ u).1
  · rw [drain, drainLoop_of_gap _ (by rw [hwin, hgap])]
    simp [hexp, hcp, hwin]
  · have hd := drain_eq src u
    generalize drain src u = t at hd
    rw [hd, hframe]

/-- Settles O21: the ahead verdict; `d` is the distance of the frame from the expected sequence. -/
theorem aheadDataIsBuffered : Obligations.AheadDataIsBuffered := by
  intro retry n src p s d hroom hm hd h1 h2
  rw [← seqDistance_eq] at hd
  subst hd
  set e : InEntry := ⟨src, n, .data, p⟩
  refine ⟨trackSequence e s, exec_unicastData retry n src p hroom hm, ?_, ?_, ?_, inSeenAt_trackSequence e s,
    otherSourcesKept_trackSequence e s⟩ <;> rw [trackSequence_ahead (e := e) h1 h2]
  · rw [bufferAhead_eq, sightSource_eq]
  · simpa only [inExpAt_sightSource, windowAt_sightSource, sightSource_cfg] using
      windowAt_bufferAhead e (sightSource e.src s)
  · rw [inExpAt_bufferAhead, inExpAt_sightSource]

/-- Settles O22: the behind verdict. -/
theorem behindDataIsReAcked : Obligations.BehindDataIsReAcked := by
  intro retry n src p s hroom hm hd
  rw [← seqDistance_eq] at hd
  set e : InEntry := ⟨src, n, .data, p⟩
  refine ⟨trackSequence e s, exec_unicastData retry n src p hroom hm, ?_, ?_, ?_, inSeenAt_trackSequence e s,
    otherSourcesKept_trackSequence e s⟩ <;> rw [trackSequence_behind (e := e) hd]
  · rw [enqueueAck_eq, oqWithAck_sightSource, sightSource_eq]
  · rw [windowAt_enqueueAck, windowAt_sightSource]
  · rw [inExpAt_enqueueAck, inExpAt_sightSource]

/-! ## The other frames (R222 to R228) -/

/-- The dispatch of a frame is the meaning of the instruction that frame is. -/
theorem dispatch_and_exec {d : RxFrame} {s t : State} (h : dispatch d s = t) :
    dispatch d s = t ∧ ∀ i, receivedFrame i = some d → exec i s = .next t :=
  ⟨h, fun i hi => by rw [exec_of_receivedFrame hi, h]⟩

/-- Settles O24: a frame of case 2, 4, 5 or 6 is in none of the seven classes. -/
theorem ignoredFramesChangeNothing : Obligations.IgnoredFramesChangeNothing := by
  intro d s hroom hm hd
  refine dispatch_and_exec ?_
  rcases dispatch_ignored_or d (iqFull_of_ne hroom) with
    h | hbeacon | ⟨hk, ha, hp⟩ | ⟨hk, ha, hv, hdata, hdest, hseq⟩ | ⟨hk, ha⟩
  · exact h
  · exact absurd hd (by simp [hbeacon, hbeacon.1, hbeacon.2.1, hm.symm])
  · exact absurd hd (by simp [hk, ha, hp, hm.symm])
  · exact absurd hd (by simp [hk, ha, hv, hdata, hdest, hseq, hm])
  · exact absurd hd (by simp [hk, ha, hm])

/-- Settles O25: case 3 comes before all but case 2. -/
theorem fullQueueDropsEveryFrame : Obligations.FullQueueDropsEveryFrame :=
  fun _ _ hfull hb => dispatch_and_exec (dispatch_of_full (beq_iff_eq.2 hfull) hb)

/-- Settles O23: case 4 of the dispatch; a beacon's case 2 is not for DATA. -/
theorem broadcastDataIsDelivered : Obligations.BroadcastDataIsDelivered := by
  intro retry n src p s hroom hd
  rw [← seqDistance_eq] at hd
  rw [exec_of_receivedFrame rfl]
  simp [dispatch, dispatchRoom, dataEntry, isBroadcast, iqFull_of_ne hroom, bcastPass_of_passes hd, deliver, setBcExp]

/-- Settles O26: case 5 of the dispatch, by the ACK matcher. -/
theorem matchingAckMarksHead : Obligations.MatchingAckMarksHead := by
  intro retry n src p s hroom hv hk hd hs
  have hmatch : ackMatch ⟨.ack, retry, n, s.cfg.myAddr, src, p⟩ s = true := ackMatch_iff.2 ⟨hv, hk, hd, hs⟩
  rw [exec_of_receivedFrame rfl]
  simp [dispatch, dispatchRoom, isMine, iqFull_of_ne hroom, hmatch, markAcked]

/-- Settles O27: case 2 of the dispatch; what the timestamp does to now() is absorbBeacon's (R151). -/
theorem beaconIsAbsorbed : Obligations.BeaconIsAbsorbed := by
  intro retry n src p s hen hd
  rw [← seqDistance_eq] at hd
  set v := setBcExp (if n = s.rx.bcExp then n + 1 else s.rx.bcExp) s
  have hread (ts : Time) (hp : be64 ts <+: p) : absorbPayload p v = absorbBeacon ts v := by
    obtain ⟨r, rfl⟩ := hp
    rw [absorbPayload, rdBE64_be64, if_pos (by simp)]
  refine ⟨absorbPayload p v, ?_, ?_, fun ts hp hlt => ?_, fun ts hp hle => ?_, fun hp => ?_⟩
  · rw [exec_of_receivedFrame rfl, dispatch_of_beaconCase (d := ⟨.beacon, retry, n, bcast, src, p⟩) ⟨rfl, rfl, hen, hd⟩]
  · rw [absorbPayload_eq]
    rfl
  · rw [hread ts hp]
    exact ((absorbSetsNow ts v).2 hlt).1
  · rw [hread ts hp, absorbBeacon_of_le (s := v) hle]
    rfl
  · rw [absorbPayload, if_neg (Nat.not_le.2 hp)]
    rfl

/-! ## What one frame delivers (R238, R242) -/

/-- Expecting one sequence more, then `k` more (R12). -/
theorem seq_add_one_add (e : Seq) (k : Nat) : e + 1 + BitVec.ofNat 12 k = e + BitVec.ofNat 12 (k + 1) := by
  rw [BitVec.ofNat_add, add_right_comm, add_assoc]
  rfl

/-- A run that stands in a window after a shift stood one slot further on before it. -/
theorem run_prefix_of_shift {run : List InEntry} {w : Window} (h : run.map some <+: w ++ [none]) :
    run.map some <+: w := by
  rcases List.prefix_concat_iff.1 h with he | hp
  · have hnone : none ∈ run.map some := by simp [he]
    simp at hnone
  · exact hp

/-- However it ends, Drain delivers a run at the front of the window and expects what follows it. -/
theorem drainLoop_delivers (a : Addr) (n : Nat) (s : State) :
    ∃ run : List InEntry, run.map some <+: windowAt s a ∧ (drainLoop a n s).iq = s.iq ++ run
      ∧ inExpAt (drainLoop a n s) a = inExpAt s a + BitVec.ofNat 12 run.length := by
  induction n generalizing s with
  | zero => exact ⟨[], by simp [drainLoop]⟩
  | succ n ih =>
    rw [drainLoop_succ]
    split
    · exact ⟨[], by simp⟩
    · rename_i c hc
      split
      · exact ⟨[], by simp⟩
      · obtain ⟨run, hrun, hiq, hexp⟩ := ih (setInExp a (inExpAt s a + 1)
          (deliver c (setWindow a ((windowAt s a).tail ++ [none]) s)))
        obtain ⟨w, hw⟩ := List.head?_eq_some_iff.1 (Option.join_eq_some_iff.1 hc)
        rw [hw, List.tail_cons, windowAt_setInExp, windowAt_deliver, windowAt_setWindow_same] at hrun
        refine ⟨c :: run, ?_, by simpa using hiq, ?_⟩
        · rw [hw, List.map_cons]
          exact List.cons_prefix_cons.2 ⟨rfl, run_prefix_of_shift hrun⟩
        · rw [hexp, inExpAt_setInExp_same, seq_add_one_add, List.length_cons]

/-- The equal case delivers its frame and a run at the front of the window (R233, R235). -/
theorem acceptInOrder_delivers (e : InEntry) (s : State) :
    ∃ run : List InEntry, run.map some <+: windowAt s e.src ∧ (acceptInOrder e s).iq = s.iq ++ e :: run
      ∧ inExpAt (acceptInOrder e s) e.src = e.seq + BitVec.ofNat 12 (run.length + 1) := by
  obtain ⟨run, hrun, hiq, hexp⟩ := drainLoop_delivers e.src ((acceptExpected e s).cfg.winSlots + 1) (acceptExpected e s)
  refine ⟨run, by simpa using hrun, ?_, ?_⟩
  · rw [acceptInOrder_eq, drain, hiq, acceptExpected_eq, List.append_assoc, List.singleton_append]
  · rw [acceptInOrder_eq, drain, hexp, inExpAt_acceptExpected, seq_add_one_add]

/-- An aligned source reads alike before and after its first sighting (R40, R41). -/
theorem ReceiveInvariant.expectedFrom_eq {s : State} (h : ReceiveInvariant s) (a : Addr) :
    expectedFrom s a = inExpAt s a := by
  unfold expectedFrom
  split
  · rfl
  · exact (h.unseen a (by simpa using ‹¬ inSeenAt s a = true›)).1.symm

theorem ReceiveInvariant.windowFrom_eq {s : State} (h : ReceiveInvariant s) (a : Addr) :
    windowFrom s a = windowAt s a := by
  unfold windowFrom
  split
  · rfl
  · exact (h.unseen a (by simpa using ‹¬ inSeenAt s a = true›)).2.symm

/-- Under the receive invariant a frame with the expected sequence is delivered with the run behind it, which
stands in the window. -/
theorem trackSequence_delivers {e : InEntry} {s : State} (hs : ReceiveInvariant s) (he : e.seq = inExpAt s e.src) :
    ∃ run : List InEntry, run.map some <+: windowAt s e.src ∧ (trackSequence e s).iq = s.iq ++ e :: run
      ∧ inExpAt (trackSequence e s) e.src = e.seq + BitVec.ofNat 12 (run.length + 1) := by
  obtain ⟨run, hrun, hiq, hexp⟩ := acceptInOrder_delivers e (sightSource e.src s)
  rw [windowAt_sightSource, hs.windowFrom_eq] at hrun
  rw [sightSource_iq] at hiq
  rw [trackSequence_equal (he.trans (hs.expectedFrom_eq e.src).symm)]
  exact ⟨run, hrun, hiq, hexp⟩

/-- Every other frame delivers nothing and leaves the expected sequence (R236, R237). -/
theorem trackSequence_delivers_nothing {e : InEntry} {s : State} (hs : ReceiveInvariant s)
    (he : e.seq ≠ inExpAt s e.src) :
    (trackSequence e s).iq = s.iq ∧ inExpAt (trackSequence e s) e.src = inExpAt s e.src := by
  rcases trackSequence_cases e s with ⟨ho, h⟩ | ⟨_, h⟩ | ⟨_, h⟩
  · rw [inExpAt_sightSource, hs.expectedFrom_eq, seqCompare_equal, seqDistance_eq_zero] at ho
    exact absurd ho he
  · rw [h, inExpAt_bufferAhead, inExpAt_sightSource, hs.expectedFrom_eq, bufferAhead_eq]
    exact ⟨sightSource_iq e.src s, rfl⟩
  · rw [h, inExpAt_enqueueAck, inExpAt_sightSource, hs.expectedFrom_eq, enqueueAck_iq]
    exact ⟨sightSource_iq e.src s, rfl⟩

/-- A run at the front of an aligned window has the sequences from the second on (R41). -/
theorem WindowAligned.run {slots : Nat} {a : Addr} {e : Seq} {w : Window} {run : List InEntry}
    (h : WindowAligned slots a e w) (hrun : run.map some <+: w) {i : Nat} {c : InEntry} (hc : run[i]? = some c) :
    c.src = a ∧ c.seq = e + BitVec.ofNat 12 (i + 1) := by
  obtain ⟨rest, rfl⟩ := hrun
  obtain ⟨hi, hget⟩ := List.getElem?_eq_some_iff.1 hc
  obtain ⟨hsrc, _, hseq⟩ := h.slot i c (by simp [List.getElem?_append_left, hi, hget])
  exact ⟨hsrc, hseq⟩

/-- Settles O55: what is delivered is the frame expected and the run behind it in its aligned window, or nothing. -/
theorem unicastDeliveryIsConsecutive : Obligations.UnicastDeliveryIsConsecutive := by
  intro retry n src p s t hs hm he
  by_cases hroom : s.iq.length = s.cfg.iqCap
  · have hb : ¬ BeaconCase ⟨.data, retry, n, s.cfg.myAddr, src, p⟩ s := fun hb => by cases hb.1
    obtain ⟨_, hexec⟩ := fullQueueDropsEveryFrame _ s hroom hb
    cases (hexec _ rfl).symm.trans he
    exact ⟨[], by simp, by simp, by simp [inExpAt]⟩
  set e : InEntry := ⟨src, n, .data, p⟩
  obtain rfl : trackSequence e s = t := by
    rw [exec_unicastData retry n src p hroom hm] at he
    injection he
  by_cases hn : n = inExpAt s src
  · obtain ⟨run, hrun, hiq, hexp⟩ := trackSequence_delivers (e := e) hs hn
    refine ⟨e :: run, hiq, fun i c hc => ?_, by rw [hexp]; exact congrArg (· + _) hn⟩
    cases i with
    | zero =>
      obtain rfl : e = c := by simpa using hc
      exact ⟨rfl, by simpa using hn⟩
    | succ i => exact (hs.aligned src).run hrun (by simpa using hc)
  · obtain ⟨hiq, hexp⟩ := trackSequence_delivers_nothing (e := e) hs hn
    exact ⟨[], by simpa using hiq, by simp, by simpa using hexp⟩

/-- A sequence that `k` frames have passed is behind while `k` is within half the space (R232). -/
theorem seqDistance_of_passed (n : Seq) {k : Nat} (h1 : 1 ≤ k) (h2 : k ≤ 2048) :
    2048 ≤ seqDistance n (n + BitVec.ofNat 12 k) := by
  have hn := n.isLt
  rw [seqDistance_eq, BitVec.toNat_add, BitVec.toNat_ofNat]
  omega

/-- Settles O56: the frame and the run behind it are at most W + 1, so the frame is then behind (R237). -/
theorem duplicateIsReAckedNotDelivered : Obligations.DuplicateIsReAckedNotDelivered := by
  intro retry retry' n src p s t hs hm hw hn hroom he hroom'
  set e : InEntry := ⟨src, n, .data, p⟩
  obtain rfl : trackSequence e s = t := by
    rw [exec_unicastData retry n src p hroom hm] at he
    injection he
  set t := trackSequence e s
  obtain ⟨run, hrun, _, hexp⟩ := trackSequence_delivers (e := e) hs hn
  have hlen : run.length ≤ s.cfg.winSlots := by
    rw [← (hs.aligned src).length, ← List.length_map (f := some)]
    exact hrun.length_le
  have hcfg : t.cfg = s.cfg := trackSequence_cfg e s
  have hseen : inSeenAt t src = true := inSeenAt_trackSequence e s
  have hexpected : expectedFrom t src = inExpAt t src := if_pos hseen
  have hwindow : windowFrom t src = windowAt t src := if_pos hseen
  have hbehind : 2048 ≤ seqDistance n (expectedFrom t src) := by
    rw [hexpected, hexp]
    exact seqDistance_of_passed n (Nat.le_add_left 1 _) (by omega)
  rw [seqDistance_eq] at hbehind
  obtain ⟨u, hu, hframe, hwin, hexp', _, hothers⟩ := behindDataIsReAcked retry' n src p t hroom' (hcfg ▸ hm) hbehind
  rw [hcfg] at hu
  exact ⟨u, hu, hframe, hexp'.trans hexpected, hwin.trans hwindow, hothers⟩

/-! ## A source stays seen (R234) -/

theorem inSeenAt_dispatch {a : Addr} (d : RxFrame) {s : State} (h : inSeenAt s a = true) :
    inSeenAt (dispatch d s) a = true := by
  rcases dispatch_cases d s with
    ⟨s', _, _, _, hb, e⟩ | ⟨_, e⟩ | ⟨s', _, _, _, hb, e⟩ | ⟨_, _, _, _, e⟩ | ⟨_, _, _, e⟩ | ⟨_, e⟩ <;> rw [e]
  · obtain ⟨v, rfl⟩ := bcastPass_eq hb
    rw [absorbPayload_eq]
    exact h
  · exact h
  · obtain ⟨v, rfl⟩ := bcastPass_eq hb
    exact h
  · exact h
  · rcases eq_or_ne a (dataEntry d).src with rfl | ha
    · exact inSeenAt_trackSequence _ _
    · obtain ⟨hseen, _⟩ := (otherSourcesKept_trackSequence (dataEntry d) s).1 a ha
      rwa [hseen]
  · exact h

/-- Settles O51: RX only ever sets IN_SEEN, and no other agent writes it. -/
theorem sightedSourceStaysSeen : Obligations.SightedSourceStaysSeen := by
  intro s t a hs he
  refine step_preserves (P := fun s => inSeenAt s a = true) ?outside ?transmit ?corrupt ?receive ?host hs he
  case outside => exact fun _ _ _ _ hs => hs
  case transmit => exact fun s t hs he => (inSeenAt_congr (by rw [(txStep_writes he).rx]) a).trans hs
  case corrupt => exact fun _ hs => hs
  case receive => exact fun d _ hs => inSeenAt_dispatch d hs
  case host => exact fun _ s t hs _ hm => (inSeenAt_congr (by rw [hm.rx]) a).trans hs

/-! ## The RX step (R221) -/

/-- Settles O58: the pick is RX's, and RX executes the byte string it takes. -/
theorem stepRunsReceivedFrame : Obligations.StepRunsReceivedFrame := by
  intro s b rest i hok hp hq hd
  rw [← consumePick_chan s] at hq ⊢
  rw [← consumePick_cfg s] at hd
  rw [step_of_pick hok hp, runAgent, rxStep, hq]
  simp only [rxFrame, hd]

end Sys2Proof.Machine

/-! # The host commands (44_host_commands.md): the host word's decode (O6), each command's effects (O8 to O17) and
the step that runs a command (O59). -/

namespace Sys2Proof

/-! ## The fields of CW32 as numbers (R88) -/

theorem cwOp_eq_iff {w : Word32} {o : BitVec 8} : cwOp w = o ↔ w.toNat / 2 ^ 24 = o.toNat := by
  have hw := w.isLt
  rw [BitVec.toNat_eq, cwOp, BitVec.extractLsb'_toNat, Nat.shiftRight_eq_div_pow, Nat.mod_eq_of_lt (by omega)]

theorem cwCode_eq_iff {w : Word32} {c : BitVec 8} : cwCode w = c ↔ w.toNat / 2 ^ 16 % 2 ^ 8 = c.toNat := by
  rw [BitVec.toNat_eq, cwCode, BitVec.extractLsb'_toNat, Nat.shiftRight_eq_div_pow]

theorem cwAddr_eq (w : Word32) : cwAddr w = BitVec.ofNat 16 w.toNat := rfl

/-! ## The host decode, command by command (R271, R89) -/

section HostDecode

variable (h : Nat) {k : HostCommand}

theorem decodeHost_send (hop : k.word.toNat / 2 ^ 24 = 1) :
    decodeHost h k = .ok (.send h (BitVec.ofNat 16 k.word.toNat) k.payload) := by
  rw [decodeHost, if_pos (cwOp_eq_iff.2 hop), cwAddr_eq]

theorem decodeHost_recv (hop : k.word.toNat / 2 ^ 24 = 2) : decodeHost h k = .ok (.recv h) := by
  simp [decodeHost, (cwOp_eq_iff (o := 0x02#8)).2 hop]

theorem decodeHost_status (hop : k.word.toNat / 2 ^ 24 = 3) : decodeHost h k = .ok (.status h) := by
  simp [decodeHost, (cwOp_eq_iff (o := 0x03#8)).2 hop]

/-- Under OP CMD the decode looks at CODE, and at nothing more of the word (R90). -/
theorem decodeHost_cmd (hop : k.word.toNat / 2 ^ 24 = 4) :
    decodeHost h k
      = if k.word.toNat / 2 ^ 16 % 2 ^ 8 = 0 then .ok (.cmdHelp h)
        else if k.word.toNat / 2 ^ 16 % 2 ^ 8 = 1 then .ok (.cmdDebug h k.value)
        else if k.word.toNat / 2 ^ 16 % 2 ^ 8 = 2 then .ok (.cmdSlotsel h k.value)
        else if k.word.toNat / 2 ^ 16 % 2 ^ 8 = 3 then .ok (.cmdBeacon h k.value)
        else .error .illegalWord := by
  simp [decodeHost, (cwOp_eq_iff (o := 0x04#8)).2 hop, cwCode_eq_iff]

theorem decodeHost_cmdHelp (hop : k.word.toNat / 2 ^ 24 = 4) (hcode : k.word.toNat / 2 ^ 16 % 2 ^ 8 = 0) :
    decodeHost h k = .ok (.cmdHelp h) := by
  rw [decodeHost_cmd h hop, hcode]
  rfl

theorem decodeHost_cmdDebug (hop : k.word.toNat / 2 ^ 24 = 4) (hcode : k.word.toNat / 2 ^ 16 % 2 ^ 8 = 1) :
    decodeHost h k = .ok (.cmdDebug h k.value) := by
  rw [decodeHost_cmd h hop, hcode]
  rfl

theorem decodeHost_cmdSlotsel (hop : k.word.toNat / 2 ^ 24 = 4) (hcode : k.word.toNat / 2 ^ 16 % 2 ^ 8 = 2) :
    decodeHost h k = .ok (.cmdSlotsel h k.value) := by
  rw [decodeHost_cmd h hop, hcode]
  rfl

theorem decodeHost_cmdBeacon (hop : k.word.toNat / 2 ^ 24 = 4) (hcode : k.word.toNat / 2 ^ 16 % 2 ^ 8 = 3) :
    decodeHost h k = .ok (.cmdBeacon h k.value) := by
  rw [decodeHost_cmd h hop, hcode]
  rfl

/-- No row of R89 has this OP. -/
theorem decodeHost_illegalOp (hop : k.word.toNat / 2 ^ 24 = 0 ∨ 5 ≤ k.word.toNat / 2 ^ 24) :
    decodeHost h k = .error .illegalWord := by
  have hne (o : BitVec 8) (h1 : 1 ≤ o.toNat) (h4 : o.toNat ≤ 4) : ¬ cwOp k.word = o := by
    rw [cwOp_eq_iff]
    omega
  rw [decodeHost, if_neg (hne _ (by decide) (by decide)), if_neg (hne _ (by decide) (by decide)),
    if_neg (hne _ (by decide) (by decide)), if_neg (hne _ (by decide) (by decide))]

/-- No CMD row of R89 has this CODE. -/
theorem decodeHost_illegalCode (hop : k.word.toNat / 2 ^ 24 = 4) (hcode : 4 ≤ k.word.toNat / 2 ^ 16 % 2 ^ 8) :
    decodeHost h k = .error .illegalWord := by
  rw [decodeHost_cmd h hop, if_neg (by omega), if_neg (by omega), if_neg (by omega), if_neg (by omega)]

end HostDecode

/-- Settles O6: one clause for each row of R89, and one for the words that have none. -/
theorem hostWordDecodesByOpAndCode : Obligations.HostWordDecodesByOpAndCode := by
  intro h k op code
  refine ⟨decodeHost_send h, decodeHost_recv h, decodeHost_status h, fun ⟨hop, hcode⟩ => decodeHost_cmdHelp h hop hcode,
    fun ⟨hop, hcode⟩ => decodeHost_cmdDebug h hop hcode, fun ⟨hop, hcode⟩ => decodeHost_cmdSlotsel h hop hcode,
    fun ⟨hop, hcode⟩ => decodeHost_cmdBeacon h hop hcode, ?_⟩
  rintro (hop | hop | ⟨hop, hcode⟩)
  · exact decodeHost_illegalOp h (.inl hop)
  · exact decodeHost_illegalOp h (.inr hop)
  · exact decodeHost_illegalCode h hop hcode

end Sys2Proof

namespace Sys2Proof.Machine

/-! ## Rejections (R273, R275, R288) -/

/-- A rejection records its code and returns 0, and that is all. -/
theorem rejectCommand_effects (h : Nat) (c : Status) (s : State) :
    rejectCommand h c s
        = { s with cp := { s.cp with lastEvent := statusCode c }, hosts := (rejectCommand h c s).hosts }
      ∧ ResultOnly h 0#32 s (rejectCommand h c s) :=
  ⟨rfl, resultOnly_setResult h 0#32 rfl⟩

/-! ## SEND (R272 to R275) -/

section Send

variable (h : Nat) (a : Addr) {p : Bytes} {s : State}

theorem exec_send_oversized (hp : s.cfg.maxPayload < p.length) :
    exec (.send h a p) s = .next (rejectCommand h .badBufferSize s) :=
  congrArg _ (if_pos hp)

theorem exec_send_full (hp : p.length ≤ s.cfg.maxPayload) (ho : s.cfg.oqCap ≤ occupancy s) :
    exec (.send h a p) s = .next (rejectCommand h .insufficientBufferSpace s) :=
  congrArg _ ((if_neg (Nat.not_lt.2 hp)).trans (if_pos ho))

theorem exec_send_accepted (hp : p.length ≤ s.cfg.maxPayload) (ho : occupancy s < s.cfg.oqCap) :
    exec (.send h a p) s = .next (acceptSend h a p s) :=
  congrArg _ ((if_neg (Nat.not_lt.2 hp)).trans (if_neg (Nat.not_le.2 ho)))

end Send

/-- An accepted SEND leaves OUT_SEQ as the write of OUT_SEQ[a] does (R274). -/
theorem outSeqAt_acceptSend (h : Nat) (a b : Addr) (p : Bytes) (s : State) :
    outSeqAt (acceptSend h a p s) b = outSeqAt (setOutSeq a (outSeqAt s a + 1) s) b := rfl

/-- Settles O8: the size check comes before the capacity check. -/
theorem sendOversizedIsRejected : Obligations.SendOversizedIsRejected :=
  fun h a _ s hp => ⟨_, exec_send_oversized h a hp, rejectCommand_effects h .badBufferSize s⟩

/-- Settles O9: the second check fails. -/
theorem sendToFullQueueIsRejected : Obligations.SendToFullQueueIsRejected :=
  fun h a _ s hp ho => ⟨_, exec_send_full h a hp ho, rejectCommand_effects h .insufficientBufferSpace s⟩

/-- Settles O10: of OUT_SEQ only the destination's entry is written. -/
theorem sendIsQueued : Obligations.SendIsQueued := by
  intro h a p s hp ho
  refine ⟨_, exec_send_accepted h a hp ho, rfl, ?_, fun b hb => ?_, resultOnly_setResult h _ rfl⟩
  · rw [outSeqAt_acceptSend, outSeqAt_setOutSeq_same, BitVec.toNat_add]
    rfl
  · rw [outSeqAt_acceptSend, outSeqAt_setOutSeq_of_ne s _ hb]

/-! ## RECV (R277) -/

section Recv

variable {h : Nat} {s : State}

theorem exec_recv_issue (hb : (hostAt s h).blocked = false) : exec (.recv h) s = .next (recvIssue h s) := by
  simp [exec, execRecv, hb]

theorem exec_recv_complete {e : InEntry} {rest : List InEntry} (hb : (hostAt s h).blocked = true)
    (hq : s.iq = e :: rest) : exec (.recv h) s = .next (recvComplete h e rest s) := by
  simp [exec, execRecv, hb, hq]

theorem exec_recv_hold (hb : (hostAt s h).blocked = true) (hq : s.iq = []) : exec (.recv h) s = .next s := by
  simp [exec, execRecv, hb, hq]

end Recv

/-- Settles O11: H_BLOCKED tells the issue step from the completion step, which needs a front of IQ. -/
theorem recvIssuesThenCompletes : Obligations.RecvIssuesThenCompletes :=
  fun h s =>
    ⟨fun _ hop => decodeHost_recv h hop,
      fun hb => ⟨_, exec_recv_issue hb, rfl, hostAt_setHost_same s h _, fun _ hg => hostAt_setHost_of_ne s _ hg⟩,
      fun _ rest hb hq =>
        ⟨_, exec_recv_complete hb hq, rfl, hostAt_setHost_same { s with iq := rest } h _,
          fun _ hg => hostAt_setHost_of_ne { s with iq := rest } _ hg⟩,
      exec_recv_hold⟩

/-! ## STATUS and CMD (R280 to R286) -/

/-- Settles O12: LAST_EVENT is read, and RESULT alone is written. -/
theorem statusReturnsLastEvent : Obligations.StatusReturnsLastEvent := by
  intro h s
  rw [BitVec.ofNat_toNat]
  exact ⟨fun _ hop => decodeHost_status h hop, _, rfl, rfl, resultOnly_setResult h _ rfl⟩

/-- Settles O13: RESULT alone is written. -/
theorem helpWritesOnlyResult : Obligations.HelpWritesOnlyResult :=
  fun h _ =>
    ⟨fun _ hw => decodeHost_cmdHelp h (by omega) (by omega), _, rfl, rfl, resultOnly_setResult h _ rfl⟩

/-- Settles O14: DEBUG takes the VALUE whole. -/
theorem debugStoresValue : Obligations.DebugStoresValue :=
  fun h _ _ =>
    ⟨fun _ hw => decodeHost_cmdDebug h (by omega) (by omega), _, rfl, rfl, resultOnly_setResult h _ rfl⟩

/-- Fixed slots are selected by every VALUE but 0 (R285). -/
theorem slotMode_iff {v : Word32} : slotMode v = true ↔ v.toNat ≠ 0 :=
  bne_iff_ne.trans (not_congr BitVec.toNat_eq)

/-- Settles O15: FIXED_SLOT is the slot mode of VALUE. -/
theorem slotselSelectsFixedUnlessZero : Obligations.SlotselSelectsFixedUnlessZero :=
  fun h _ _ =>
    ⟨fun _ hw => decodeHost_cmdSlotsel h (by omega) (by omega), _, rfl, rfl, slotMode_iff,
      resultOnly_setResult h _ rfl⟩

/-- VALUE is negative in the upper half of the words (R88). -/
theorem signedValue_neg_iff {v : Word32} : signedValue v < 0 ↔ 2 ^ 31 ≤ v.toNat := by
  rw [signedValue, BitVec.toInt_neg_iff]
  omega

/-- The interval is the product of the two numbers on 64 bits (R286, R9). -/
theorem beaconIntervalOf_eq (c : Config) (v : Word32) :
    beaconIntervalOf c v = BitVec.ofNat 64 (v.toNat * c.beaconUnit.toNat) := by
  rw [beaconIntervalOf, BitVec.ofNat_mul, BitVec.ofNat_toNat, BitVec.ofNat_toNat, BitVec.setWidth_eq]

theorem setBeacons_of_neg {v : Word32} (s : State) (hv : 2 ^ 31 ≤ v.toNat) :
    setBeacons v s = { s with cp := { s.cp with beaconEn := false } } :=
  if_pos (signedValue_neg_iff.2 hv)

theorem setBeacons_of_nonneg {v : Word32} (s : State) (hv : v.toNat < 2 ^ 31) :
    setBeacons v s
      = { s with
          cp := { s.cp with
                  beaconEn := true
                  beaconInterval := BitVec.ofNat 64 (v.toNat * s.cfg.beaconUnit.toNat) } } := by
  rw [← beaconIntervalOf_eq]
  exact if_neg (mt signedValue_neg_iff.1 (Nat.not_le.2 hv))

theorem exec_cmdBeacon {h : Nat} {v : Word32} {s t : State} (ht : setBeacons v s = t) :
    exec (.cmdBeacon h v) s = .next (setResult h 0#32 t) := by
  rw [← ht]
  rfl

/-- With beacons enabled, one is due once the interval has passed since LAST_BEACON (R146). -/
theorem beaconDue_iff {s : State} (hen : s.cp.beaconEn = true) :
    beaconDue s = true ↔ s.cp.beaconInterval ≤ now s - s.cp.lastBeacon := by
  rw [beaconDue, hen, Bool.true_and, decide_eq_true_iff]

/-- Settles O16: neither case writes LAST_BEACON, CHAN_CLOCK or OFFSET, so what is due is measured as before. -/
theorem beaconCommandSetsInterval : Obligations.BeaconCommandSetsInterval :=
  fun h _ s =>
    ⟨fun _ hw => decodeHost_cmdBeacon h (by omega) (by omega),
      fun hv => ⟨_, exec_cmdBeacon (setBeacons_of_neg s hv), rfl, resultOnly_setResult h _ rfl⟩,
      fun hv => ⟨_, exec_cmdBeacon (setBeacons_of_nonneg s hv), rfl, resultOnly_setResult h _ rfl, beaconDue_iff rfl⟩⟩

/-! ## The port (R270, R271, R288) -/

/-- An answer in RESULT leaves H_BLOCKED, so it leaves the port as ready as it was. -/
theorem hostReady_of_resultOnly {h : Nat} {v : Word32} {s t : State} (hc : t.cfg = s.cfg) (hr : ResultOnly h v s t) :
    hostReady h t = hostReady h s := by
  rw [hostReady, hostReady, hc, hr.1]

@[simp] theorem hostAt_consumePick (s : State) (h : Nat) : hostAt (consumePick s) h = hostAt s h :=
  hostAt_congr (consumePick_hosts s) h

@[simp] theorem hostReady_consumePick (s : State) (h : Nat) : hostReady h (consumePick s) = hostReady h s := by
  simp [hostReady]

theorem hostStep_of_illegal {h : Nat} {k : HostCommand} {s : State} {r : Reject} (hr : hostReady h s = true)
    (hd : decodeHost h k = .error r) : hostStep h k s = .next (illegalWord h s) := by
  simp [hostStep, hr, hd]

theorem hostStep_of_instr {h : Nat} {k : HostCommand} {s : State} {i : Instr} (hr : hostReady h s = true)
    (hd : decodeHost h k = .ok i) : hostStep h k s = exec i s := by
  simp [hostStep, hr, hd]

theorem completeStep_of_blocked {h : Nat} {s : State} (hx : hostExists s.cfg h = true)
    (hb : (hostAt s h).blocked = true) : completeStep h s = exec (.recv h) s := by
  simp [completeStep, hx, hb]

/-- Settles O17: a rejection writes RESULT alone of the agent's registers, so the agent can issue again. -/
theorem illegalWordIsRejected : Obligations.IllegalWordIsRejected := by
  intro h k s hd hr
  obtain ⟨hframe, hresult⟩ := rejectCommand_effects h .illegalArgument s
  have hready : hostReady h (illegalWord h s) = hostReady h s := hostReady_of_resultOnly rfl hresult
  exact ⟨_, hostStep_of_illegal hr hd, hframe, hresult, hready.trans hr⟩

/-- Settles O59: using up the pick leaves the parameters and the host registers, so the agent picked is still ready, or
still blocked. -/
theorem stepRunsHostCommand : Obligations.StepRunsHostCommand := by
  intro s h hok
  refine ⟨fun k i hp hr hd => ?_, fun hp hx hb => ?_⟩
  · calc step s = hostStep h k (consumePick s) := step_of_pick hok hp
      _ = exec i (consumePick s) := hostStep_of_instr (by simpa using hr) hd
  · calc step s = completeStep h (consumePick s) := step_of_pick hok hp
      _ = exec (.recv h) (consumePick s) := completeStep_of_blocked (by simpa using hx) (by simpa using hb)

end Sys2Proof.Machine

/-! # No run stops (O52): every step of a legal state answers a next state, and that state is legal again. -/

namespace Sys2Proof.Machine

/-! ## Every agent answers (R308, R311) -/

/-- No instruction faults or is refused. -/
theorem exec_answers (i : Instr) (s : State) : ∃ t, exec i s = .next t := by
  cases i with
  | data | ack | beacon | send | recv | status | cmdHelp | cmdDebug | cmdSlotsel | cmdBeacon => exact ⟨_, rfl⟩

/-- TX answers in each of its seven states (R33, R171). -/
theorem txStep_answers {s : State} (hs : s.tx.state ≠ .unused) : ∃ t, txStep s = .next t := by
  cases hst : s.tx.state with
  | idle => exact ⟨_, txStep_idle hst⟩
  | difsWait => exact ⟨_, txStep_difsWait hst⟩
  | backoffSlot => exact ⟨_, txStep_backoffSlot hst⟩
  | transmit => exact ⟨_, txStep_transmit hst⟩
  | awaitAck => exact ⟨_, txStep_awaitAck hst⟩
  | waitChannelIdle => exact ⟨_, txStep_waitChannelIdle hst⟩
  | sendAckSifs => exact ⟨_, txStep_sendAckSifs hst⟩
  | unused => exact absurd hst hs

/-- RX answers on any byte string, also on one that gives no instruction (R221, R223). -/
theorem rxFrame_answers (b : Bytes) (s : State) : ∃ t, rxFrame b s = .next t := by
  unfold rxFrame
  split
  · exact exec_answers _ s
  · exact ⟨_, rfl⟩

theorem rxStep_answers (s : State) : ∃ t, rxStep s = .next t := by
  unfold rxStep
  split
  · exact ⟨s, rfl⟩
  · exact rxFrame_answers _ _

/-- A host agent answers on any command word: it holds, executes the instruction or rejects the word (R270, R288). -/
theorem hostStep_answers (h : Nat) (k : HostCommand) (s : State) : ∃ t, hostStep h k s = .next t := by
  rcases hostStep_cases h k s with ⟨_, e⟩ | ⟨_, i, _, e⟩ | ⟨_, _, e⟩ <;> rw [e]
  · exact ⟨s, rfl⟩
  · exact exec_answers i s
  · exact ⟨_, rfl⟩

theorem completeStep_answers (h : Nat) (s : State) : ∃ t, completeStep h s = .next t := by
  unfold completeStep
  split
  · exact exec_answers _ s
  · exact ⟨s, rfl⟩

theorem runAgent_answers {s : State} (a : AgentStep) (hs : s.tx.state ≠ .unused) : ∃ t, runAgent a s = .next t := by
  cases a with
  | tx => exact txStep_answers hs
  | rx => exact rxStep_answers s
  | host h k => exact hostStep_answers h k s
  | complete h => exact completeStep_answers h s
  | tick | busy | arrive | idleTime => exact ⟨_, rfl⟩

/-! ## No agent brings TX to the unused code of TX_STATE (R33) -/

theorem serveQueue_stateUsed {s : State} (hs : s.tx.state ≠ .unused) : (serveQueue s).tx.state ≠ .unused := by
  rcases serveQueue_cases s with ⟨_, e⟩ | ⟨x, q, _, _, e⟩ | ⟨x, q, _, _, _, e⟩ | ⟨x, q, _, _, _, e⟩ <;> rw [e]
  · exact hs
  · exact nofun
  · exact nofun
  · exact nofun

theorem enterBackoff_stateUsed (s : State) : (enterBackoff s).tx.state ≠ .unused := by
  rcases enterBackoff_cases s with ⟨_, e⟩ | ⟨_, e⟩ <;> rw [e]
  · exact nofun
  · exact nofun

theorem txDifsWait_stateUsed {s : State} (hs : s.tx.state ≠ .unused) : (txDifsWait s).tx.state ≠ .unused := by
  unfold txDifsWait
  split_ifs
  · exact nofun
  · exact enterBackoff_stateUsed s
  · exact nofun
  · exact hs

theorem txBackoffSlot_stateUsed {s : State} (hs : s.tx.state ≠ .unused) : (txBackoffSlot s).tx.state ≠ .unused := by
  unfold txBackoffSlot
  split_ifs
  · exact nofun
  · exact enterBackoff_stateUsed _
  · exact hs

theorem txTransmit_stateUsed (s : State) : (txTransmit s).tx.state ≠ .unused := by
  unfold txTransmit
  dsimp only
  split
  · exact nofun
  · obtain ⟨_, _, e, _⟩ := fireAndForget_resolves (chanTransmit (encodeFrame s.tx.txh.frame) s)
    rw [e]
    exact nofun

theorem AwaitAckMoves.stateUsed {s t : State} (hm : AwaitAckMoves s t) (hs : s.tx.state ≠ .unused) :
    t.tx.state ≠ .unused := by
  cases hm with
  | resolve hr =>
    rw [hr.tx]
    exact nofun
  | retry hr =>
    rw [hr.tx]
    exact nofun
  | serveAck => exact nofun
  | poll => exact hs

theorem txWaitChannelIdle_stateUsed {s : State} (hs : s.tx.state ≠ .unused) :
    (txWaitChannelIdle s).tx.state ≠ .unused := by
  unfold txWaitChannelIdle
  split_ifs
  · exact hs
  · exact nofun

/-- ACK_RETURN names AWAIT_ACK or IDLE only (R203). -/
theorem txSendAckSifs_stateUsed {s : State} (hs : s.tx.state ≠ .unused) : (txSendAckSifs s).tx.state ≠ .unused := by
  unfold txSendAckSifs
  split_ifs
  · rw [sendAck_tx]
    cases s.tx.ackReturn
    · exact nofun
    · exact nofun
  · exact hs
  · exact hs
  · exact hs

theorem txStep_stateUsed {s t : State} (hmax : s.cfg.cwMax ≤ 0xFFFF) (hs : s.tx.state ≠ .unused)
    (h : txStep s = .next t) : t.tx.state ≠ .unused := by
  rcases txStep_next h with
    ⟨_, rfl⟩ | ⟨_, rfl⟩ | ⟨_, rfl⟩ | ⟨_, rfl⟩ | ⟨hst, _⟩ | ⟨_, rfl⟩ | ⟨_, rfl⟩
  · exact serveQueue_stateUsed (by rwa [beaconCheck_tx])
  · exact txDifsWait_stateUsed hs
  · exact txBackoffSlot_stateUsed hs
  · exact txTransmit_stateUsed s
  · exact (txStep_awaitAck_moves hmax hst h).stateUsed hs
  · exact txWaitChannelIdle_stateUsed hs
  · exact txSendAckSifs_stateUsed hs

/-- RX writes of TX's registers the acked flag at most (R227). -/
theorem dispatch_txState (d : RxFrame) (s : State) : (dispatch d s).tx.state = s.tx.state := by
  rcases (dispatch_writes d s).tx with e | e <;> rw [e]

theorem HostMoves.tx {h : Nat} {s t : State} (hm : HostMoves h s t) : t.tx = s.tx := by
  rw [hm.frame]

theorem step_stateUsed {s t : State} (hs : s.tx.state ≠ .unused) (he : step s = .next t) :
    t.tx.state ≠ .unused := by
  have hc := (step_next he).1
  refine (step_preserves (P := fun s => s.cfg.ok = true ∧ s.tx.state ≠ .unused) ?outside ?transmit ?corrupt
    ?receive ?host ⟨hc, hs⟩ he).2
  case outside => exact fun _ _ _ _ => id
  case transmit =>
    intro s t ⟨hc, hs⟩ he
    obtain ⟨_, hmax, _⟩ := windowBounds hc
    exact ⟨by rwa [(txStep_writes he).cfg], txStep_stateUsed hmax hs he⟩
  case corrupt => exact fun _ => id
  case receive => exact fun d s ⟨hc, hs⟩ => ⟨by rwa [(dispatch_writes d s).cfg], by rwa [dispatch_txState]⟩
  case host => exact fun _ _ _ ⟨hc, hs⟩ _ hm => ⟨by rwa [hm.cfg], by rwa [hm.tx]⟩

/-- Settles O52: the configuration is legal, so the agent picked runs, and every agent answers; the answer keeps both
premises, so the next step answers too. -/
theorem legalStateAlwaysSteps : Obligations.LegalStateAlwaysSteps := by
  intro s hc hs
  obtain ⟨t, ht⟩ := runAgent_answers (s := consumePick s) (nextStep s) (by rwa [consumePick_tx])
  have he : step s = .next t := (step_of_ok hc).trans ht
  exact ⟨t, he, step_cfg he, step_stateUsed hs he⟩

end Sys2Proof.Machine
